-- ==== Sys2Proof/Word.lean ====
section
/-! DEFINITION. The bit-vector types of the machine (spec/00_scope.md R5, R8: register values and addresses `ta`,
`ea` are 24 bits, PC and every byte address 20 bits, F and float operands 48 bits, bytes 8 bits). -/

namespace Sys2Proof

/-- One byte of memory or of an instruction. -/
abbrev Byte := BitVec 8

/-- A 24-bit word: a register value, a target or effective address. -/
abbrev Word := BitVec 24

/-- The 48 raw bits of F or of a float operand. -/
abbrev Float48 := BitVec 48

/-- A 20-bit byte address, and the program counter (R25). -/
abbrev Addr := BitVec 20

/-- A 4-bit operand field of format 2 (R92). -/
abbrev Nibble := BitVec 4

end Sys2Proof
end

