-- ==== Sys2Proof/Syntax.lean ====
section
/-! DEFINITION. The instruction set as a data type: one constructor per row of spec/opcode_table.json
(spec/30_encoding.md R99), with the operands the decoder assembles (R98). -/

namespace Sys2Proof

/-- The operand of a format-3/4 instruction in its three layouts (30_encoding.md R93 to R98). In the SIC layout the
b, p and e positions are address bits and only x is a flag (R95). -/
inductive MemOperand where
  /-- SIC layout, n = i = 0: flag x and a 15-bit address (R95). -/
  | sic (x : Bool) (addr15 : BitVec 15)
  /-- Format 3, e = 0: flags n i x b p and a 12-bit displacement (R93). -/
  | f3 (n i x b p : Bool) (disp : BitVec 12)
  /-- Format 4, e = 1: flags n i x b p and a 20-bit address (R94). -/
  | f4 (n i x b p : Bool) (addr : BitVec 20)
  deriving DecidableEq, Repr, Inhabited

/-- The 59 instructions (30_encoding.md R99). A format-2 constructor carries both nibbles of the second byte, `r1` the
high one, also where the spec ignores one (R103). -/
inductive Instr where
  /-- LDA m, opcode 0x00 (42_load_store.md R170). -/
  | lda (m : MemOperand)
  /-- LDX m, opcode 0x04 (42_load_store.md R171). -/
  | ldx (m : MemOperand)
  /-- LDL m, opcode 0x08 (42_load_store.md R172). -/
  | ldl (m : MemOperand)
  /-- STA m, opcode 0x0C (42_load_store.md R179). -/
  | sta (m : MemOperand)
  /-- STX m, opcode 0x10 (42_load_store.md R180). -/
  | stx (m : MemOperand)
  /-- STL m, opcode 0x14 (42_load_store.md R181). -/
  | stl (m : MemOperand)
  /-- ADD m, opcode 0x18 (43_integer_arith.md R200). -/
  | add (m : MemOperand)
  /-- SUB m, opcode 0x1C (43_integer_arith.md R201). -/
  | sub (m : MemOperand)
  /-- MUL m, opcode 0x20 (43_integer_arith.md R202). -/
  | mul (m : MemOperand)
  /-- DIV m, opcode 0x24 (43_integer_arith.md R203). -/
  | div (m : MemOperand)
  /-- COMP m, opcode 0x28 (43_integer_arith.md R206). -/
  | comp (m : MemOperand)
  /-- TIX m, opcode 0x2C (43_integer_arith.md R207). -/
  | tix (m : MemOperand)
  /-- JEQ m, opcode 0x30 (45_control_transfer.md R241). -/
  | jeq (m : MemOperand)
  /-- JGT m, opcode 0x34 (45_control_transfer.md R242). -/
  | jgt (m : MemOperand)
  /-- JLT m, opcode 0x38 (45_control_transfer.md R243). -/
  | jlt (m : MemOperand)
  /-- J m, opcode 0x3C (45_control_transfer.md R240). -/
  | j (m : MemOperand)
  /-- AND m, opcode 0x40 (43_integer_arith.md R204). -/
  | and (m : MemOperand)
  /-- OR m, opcode 0x44 (43_integer_arith.md R205). -/
  | or (m : MemOperand)
  /-- JSUB m, opcode 0x48 (45_control_transfer.md R244). -/
  | jsub (m : MemOperand)
  /-- RSUB m, opcode 0x4C (45_control_transfer.md R245). -/
  | rsub (m : MemOperand)
  /-- LDCH m, opcode 0x50 (42_load_store.md R176). -/
  | ldch (m : MemOperand)
  /-- STCH m, opcode 0x54 (42_load_store.md R185). -/
  | stch (m : MemOperand)
  /-- ADDF m, opcode 0x58 (46_float.md R256). -/
  | addf (m : MemOperand)
  /-- SUBF m, opcode 0x5C (46_float.md R257). -/
  | subf (m : MemOperand)
  /-- MULF m, opcode 0x60 (46_float.md R258). -/
  | mulf (m : MemOperand)
  /-- DIVF m, opcode 0x64 (46_float.md R259). -/
  | divf (m : MemOperand)
  /-- LDB m, opcode 0x68 (42_load_store.md R173). -/
  | ldb (m : MemOperand)
  /-- LDS m, opcode 0x6C (42_load_store.md R174). -/
  | lds (m : MemOperand)
  /-- LDF m, opcode 0x70 (42_load_store.md R177). -/
  | ldf (m : MemOperand)
  /-- LDT m, opcode 0x74 (42_load_store.md R175). -/
  | ldt (m : MemOperand)
  /-- STB m, opcode 0x78 (42_load_store.md R182). -/
  | stb (m : MemOperand)
  /-- STS m, opcode 0x7C (42_load_store.md R183). -/
  | sts (m : MemOperand)
  /-- STF m, opcode 0x80 (42_load_store.md R187). -/
  | stf (m : MemOperand)
  /-- STT m, opcode 0x84 (42_load_store.md R184). -/
  | stt (m : MemOperand)
  /-- COMPF m, opcode 0x88 (46_float.md R260). -/
  | compf (m : MemOperand)
  /-- LPS m, opcode 0xD0 (47_system_io.md R273). -/
  | lps (m : MemOperand)
  /-- STI m, opcode 0xD4 (47_system_io.md R274). -/
  | sti (m : MemOperand)
  /-- RD m, opcode 0xD8 (47_system_io.md R270). -/
  | rd (m : MemOperand)
  /-- WD m, opcode 0xDC (47_system_io.md R271). -/
  | wd (m : MemOperand)
  /-- TD m, opcode 0xE0 (47_system_io.md R272). -/
  | td (m : MemOperand)
  /-- STSW m, opcode 0xE8 (42_load_store.md R186). -/
  | stsw (m : MemOperand)
  /-- SSK m, opcode 0xEC (47_system_io.md R277). -/
  | ssk (m : MemOperand)
  /-- ADDR, opcode 0x90 (44_register_ops.md R221). -/
  | addr (r1 r2 : Nibble)
  /-- SUBR, opcode 0x94 (44_register_ops.md R222). -/
  | subr (r1 r2 : Nibble)
  /-- MULR, opcode 0x98 (44_register_ops.md R224). -/
  | mulr (r1 r2 : Nibble)
  /-- DIVR, opcode 0x9C (44_register_ops.md R223). -/
  | divr (r1 r2 : Nibble)
  /-- COMPR, opcode 0xA0 (44_register_ops.md R225). -/
  | compr (r1 r2 : Nibble)
  /-- SHIFTL, opcode 0xA4 (44_register_ops.md R226). -/
  | shiftl (r1 r2 : Nibble)
  /-- SHIFTR, opcode 0xA8 (44_register_ops.md R227). -/
  | shiftr (r1 r2 : Nibble)
  /-- RMO, opcode 0xAC (44_register_ops.md R228). -/
  | rmo (r1 r2 : Nibble)
  /-- SVC, opcode 0xB0 (47_system_io.md R276). -/
  | svc (r1 r2 : Nibble)
  /-- CLEAR, opcode 0xB4 (44_register_ops.md R229). -/
  | clear (r1 r2 : Nibble)
  /-- TIXR, opcode 0xB8 (44_register_ops.md R230). -/
  | tixr (r1 r2 : Nibble)
  /-- FLOAT, opcode 0xC0 (46_float.md R261). -/
  | float
  /-- FIX, opcode 0xC4 (46_float.md R262). -/
  | fix
  /-- NORM, opcode 0xC8 (46_float.md R263). -/
  | norm
  /-- SIO, opcode 0xF0 (47_system_io.md R278). -/
  | sio
  /-- HIO, opcode 0xF4 (47_system_io.md R279). -/
  | hio
  /-- TIO, opcode 0xF8 (47_system_io.md R280). -/
  | tio
  deriving DecidableEq, Repr, Inhabited

end Sys2Proof
end

