-- ==== Sys2Proof/WellFormed.lean ====
section
/-! DEFINITION. Which terms of the syntax an encoding exists for (spec/30_encoding.md R90, R97): n = i = 0 selects the
SIC layout, so a format-3 or format-4 operand has n or i set. Register fields of any value, ignored fields and flag
combinations that raise invalid addressing (R102, R103) are all encodable and so well formed. -/

namespace Sys2Proof

/-- An operand some bytes encode: in formats 3 and 4 not both n and i are 0 (R90). -/
def MemOperand.wellFormed (m : MemOperand) : Bool :=
  match m with
  | .sic _ _ => true
  | .f3 n i _ _ _ _ => n || i
  | .f4 n i _ _ _ _ => n || i

/-- An instruction some bytes encode. -/
def Instr.wellFormed (i : Instr) : Bool :=
  match i with
  | .lda m => m.wellFormed
  | .ldx m => m.wellFormed
  | .ldl m => m.wellFormed
  | .sta m => m.wellFormed
  | .stx m => m.wellFormed
  | .stl m => m.wellFormed
  | .add m => m.wellFormed
  | .sub m => m.wellFormed
  | .mul m => m.wellFormed
  | .div m => m.wellFormed
  | .comp m => m.wellFormed
  | .tix m => m.wellFormed
  | .jeq m => m.wellFormed
  | .jgt m => m.wellFormed
  | .jlt m => m.wellFormed
  | .j m => m.wellFormed
  | .and m => m.wellFormed
  | .or m => m.wellFormed
  | .jsub m => m.wellFormed
  | .rsub m => m.wellFormed
  | .ldch m => m.wellFormed
  | .stch m => m.wellFormed
  | .addf m => m.wellFormed
  | .subf m => m.wellFormed
  | .mulf m => m.wellFormed
  | .divf m => m.wellFormed
  | .ldb m => m.wellFormed
  | .lds m => m.wellFormed
  | .ldf m => m.wellFormed
  | .ldt m => m.wellFormed
  | .stb m => m.wellFormed
  | .sts m => m.wellFormed
  | .stf m => m.wellFormed
  | .stt m => m.wellFormed
  | .compf m => m.wellFormed
  | .lps m => m.wellFormed
  | .sti m => m.wellFormed
  | .rd m => m.wellFormed
  | .wd m => m.wellFormed
  | .td m => m.wellFormed
  | .stsw m => m.wellFormed
  | .ssk m => m.wellFormed
  | .addr _ _ => true
  | .subr _ _ => true
  | .mulr _ _ => true
  | .divr _ _ => true
  | .compr _ _ => true
  | .shiftl _ _ => true
  | .shiftr _ _ => true
  | .rmo _ _ => true
  | .svc _ _ => true
  | .clear _ _ => true
  | .tixr _ _ => true
  | .float => true
  | .fix => true
  | .norm => true
  | .sio => true
  | .hio => true
  | .tio => true

end Sys2Proof
end

