-- ==== Sys2Proof/Decode.lean ====
section
/-! DEFINITION. The decoder and the encoder (spec/30_encoding.md R90 to R101): both read the one opcode table of R99,
`f34Table`, `f2Table` and `f1Table`; the decoder is total and rejects by name. -/

namespace Sys2Proof

/-- Why a byte string is no instruction. -/
inductive DecodeError where
  /-- The first byte is one of the 71 values of R101; `step` turns it into the illegal-opcode condition (R123). -/
  | illegalOpcode (b0 : Byte)
  /-- The string ends inside the instruction; the four bytes that `step` hands over never do. -/
  | truncated
  deriving DecidableEq, Repr

/-- The format-3/4 rows of R99: opcode number (`b0 & 0xFC`) and instruction. -/
def f34Table : List (Byte × (MemOperand → Instr)) :=
  [(0x00#8, .lda), (0x04#8, .ldx), (0x08#8, .ldl), (0x0C#8, .sta),
   (0x10#8, .stx), (0x14#8, .stl), (0x18#8, .add), (0x1C#8, .sub),
   (0x20#8, .mul), (0x24#8, .div), (0x28#8, .comp), (0x2C#8, .tix),
   (0x30#8, .jeq), (0x34#8, .jgt), (0x38#8, .jlt), (0x3C#8, .j),
   (0x40#8, .and), (0x44#8, .or), (0x48#8, .jsub), (0x4C#8, .rsub),
   (0x50#8, .ldch), (0x54#8, .stch), (0x58#8, .addf), (0x5C#8, .subf),
   (0x60#8, .mulf), (0x64#8, .divf), (0x68#8, .ldb), (0x6C#8, .lds),
   (0x70#8, .ldf), (0x74#8, .ldt), (0x78#8, .stb), (0x7C#8, .sts),
   (0x80#8, .stf), (0x84#8, .stt), (0x88#8, .compf), (0xD0#8, .lps),
   (0xD4#8, .sti), (0xD8#8, .rd), (0xDC#8, .wd), (0xE0#8, .td),
   (0xE8#8, .stsw), (0xEC#8, .ssk)]

/-- The format-2 rows of R99: the whole first byte and the instruction of `r1`, `r2`. -/
def f2Table : List (Byte × (Nibble → Nibble → Instr)) :=
  [(0x90#8, .addr), (0x94#8, .subr), (0x98#8, .mulr), (0x9C#8, .divr),
   (0xA0#8, .compr), (0xA4#8, .shiftl), (0xA8#8, .shiftr), (0xAC#8, .rmo),
   (0xB0#8, .svc), (0xB4#8, .clear), (0xB8#8, .tixr)]

/-- The format-1 rows of R99: the whole first byte and the instruction. -/
def f1Table : List (Byte × Instr) :=
  [(0xC0#8, .float), (0xC4#8, .fix), (0xC8#8, .norm), (0xF0#8, .sio),
   (0xF4#8, .hio), (0xF8#8, .tio)]

/-- The operand of a format-3/4 instruction whose first byte is `b0`, from the bytes after it, with the bytes left over
(R97, R98): the SIC layout when n = i = 0, else format 3 or 4 by `b1[4]`. -/
def decodeOperand (b0 : Byte) (bytes : List Byte) : Except DecodeError (MemOperand × List Byte) :=
  match bytes with
  | b1 :: b2 :: rest =>
    if (!b0.getLsbD 1 && !b0.getLsbD 0) = true then
      .ok (.sic (b1.getLsbD 7) (b1.extractLsb' 0 7 ++ b2), rest)
    else if b1.getLsbD 4 = false then
      .ok (.f3 (b0.getLsbD 1) (b0.getLsbD 0) (b1.getLsbD 7) (b1.getLsbD 6) (b1.getLsbD 5)
        (b1.extractLsb' 0 4 ++ b2), rest)
    else
      match rest with
      | b3 :: rest =>
        .ok (.f4 (b0.getLsbD 1) (b0.getLsbD 0) (b1.getLsbD 7) (b1.getLsbD 6) (b1.getLsbD 5)
          (b1.extractLsb' 0 4 ++ b2 ++ b3), rest)
      | [] => .error .truncated
  | _ => .error .truncated

/-- The instruction a byte string begins with, and the bytes left over (R97, R98, R122): formats 1 and 2 match all
eight bits of the first byte, format 3/4 its upper six. -/
def decode (bytes : List Byte) : Except DecodeError (Instr × List Byte) :=
  match bytes with
  | [] => .error .truncated
  | b0 :: rest =>
    match f1Table.lookup b0 with
    | some i => .ok (i, rest)
    | none =>
      match f2Table.lookup b0 with
      | some mk =>
        match rest with
        | b1 :: rest => .ok (mk (b1.extractLsb' 4 4) (b1.extractLsb' 0 4), rest)
        | [] => .error .truncated
      | none =>
        match f34Table.lookup (b0 &&& 0xFC#8) with
        | some mk =>
          match decodeOperand b0 rest with
          | .ok (m, rest) => .ok (mk m, rest)
          | .error e => .error e
        | none => .error (.illegalOpcode b0)

/-- The bytes of a format-3/4 instruction with opcode number `op` (R93 to R95). -/
def encodeOperand (op : Byte) (m : MemOperand) : List Byte :=
  match m with
  | .sic x a =>
    [op.extractLsb' 2 6 ++ 0#2, BitVec.ofBool x ++ a.extractLsb' 8 7, a.extractLsb' 0 8]
  | .f3 n i x b p d =>
    [op.extractLsb' 2 6 ++ BitVec.ofBool n ++ BitVec.ofBool i,
     BitVec.ofBool x ++ BitVec.ofBool b ++ BitVec.ofBool p ++ 0#1 ++ d.extractLsb' 8 4,
     d.extractLsb' 0 8]
  | .f4 n i x b p a =>
    [op.extractLsb' 2 6 ++ BitVec.ofBool n ++ BitVec.ofBool i,
     BitVec.ofBool x ++ BitVec.ofBool b ++ BitVec.ofBool p ++ 1#1 ++ a.extractLsb' 16 4,
     a.extractLsb' 8 8, a.extractLsb' 0 8]

/-- The bytes of a format-2 instruction (R92). -/
def encodePair (op : Byte) (r1 r2 : Nibble) : List Byte := [op, r1 ++ r2]

/-- The bytes of an instruction in ascending address order (R91 to R95, opcode numbers of R99). -/
def encode (i : Instr) : List Byte :=
  match i with
  | .lda m => encodeOperand 0x00#8 m
  | .ldx m => encodeOperand 0x04#8 m
  | .ldl m => encodeOperand 0x08#8 m
  | .sta m => encodeOperand 0x0C#8 m
  | .stx m => encodeOperand 0x10#8 m
  | .stl m => encodeOperand 0x14#8 m
  | .add m => encodeOperand 0x18#8 m
  | .sub m => encodeOperand 0x1C#8 m
  | .mul m => encodeOperand 0x20#8 m
  | .div m => encodeOperand 0x24#8 m
  | .comp m => encodeOperand 0x28#8 m
  | .tix m => encodeOperand 0x2C#8 m
  | .jeq m => encodeOperand 0x30#8 m
  | .jgt m => encodeOperand 0x34#8 m
  | .jlt m => encodeOperand 0x38#8 m
  | .j m => encodeOperand 0x3C#8 m
  | .and m => encodeOperand 0x40#8 m
  | .or m => encodeOperand 0x44#8 m
  | .jsub m => encodeOperand 0x48#8 m
  | .rsub m => encodeOperand 0x4C#8 m
  | .ldch m => encodeOperand 0x50#8 m
  | .stch m => encodeOperand 0x54#8 m
  | .addf m => encodeOperand 0x58#8 m
  | .subf m => encodeOperand 0x5C#8 m
  | .mulf m => encodeOperand 0x60#8 m
  | .divf m => encodeOperand 0x64#8 m
  | .ldb m => encodeOperand 0x68#8 m
  | .lds m => encodeOperand 0x6C#8 m
  | .ldf m => encodeOperand 0x70#8 m
  | .ldt m => encodeOperand 0x74#8 m
  | .stb m => encodeOperand 0x78#8 m
  | .sts m => encodeOperand 0x7C#8 m
  | .stf m => encodeOperand 0x80#8 m
  | .stt m => encodeOperand 0x84#8 m
  | .compf m => encodeOperand 0x88#8 m
  | .lps m => encodeOperand 0xD0#8 m
  | .sti m => encodeOperand 0xD4#8 m
  | .rd m => encodeOperand 0xD8#8 m
  | .wd m => encodeOperand 0xDC#8 m
  | .td m => encodeOperand 0xE0#8 m
  | .stsw m => encodeOperand 0xE8#8 m
  | .ssk m => encodeOperand 0xEC#8 m
  | .addr r1 r2 => encodePair 0x90#8 r1 r2
  | .subr r1 r2 => encodePair 0x94#8 r1 r2
  | .mulr r1 r2 => encodePair 0x98#8 r1 r2
  | .divr r1 r2 => encodePair 0x9C#8 r1 r2
  | .compr r1 r2 => encodePair 0xA0#8 r1 r2
  | .shiftl r1 r2 => encodePair 0xA4#8 r1 r2
  | .shiftr r1 r2 => encodePair 0xA8#8 r1 r2
  | .rmo r1 r2 => encodePair 0xAC#8 r1 r2
  | .svc r1 r2 => encodePair 0xB0#8 r1 r2
  | .clear r1 r2 => encodePair 0xB4#8 r1 r2
  | .tixr r1 r2 => encodePair 0xB8#8 r1 r2
  | .float => [0xC0#8]
  | .fix => [0xC4#8]
  | .norm => [0xC8#8]
  | .sio => [0xF0#8]
  | .hio => [0xF4#8]
  | .tio => [0xF8#8]

/-- The length in bytes of a format-3/4 instruction (R90). -/
def operandLength (m : MemOperand) : Nat :=
  match m with
  | .sic _ _ => 3
  | .f3 _ _ _ _ _ _ => 3
  | .f4 _ _ _ _ _ _ => 4

/-- The length of an instruction in bytes (R90): the number of bytes fetch consumes (40_cycle.md R122). -/
def instrLength (i : Instr) : Nat :=
  match i with
  | .lda m => operandLength m
  | .ldx m => operandLength m
  | .ldl m => operandLength m
  | .sta m => operandLength m
  | .stx m => operandLength m
  | .stl m => operandLength m
  | .add m => operandLength m
  | .sub m => operandLength m
  | .mul m => operandLength m
  | .div m => operandLength m
  | .comp m => operandLength m
  | .tix m => operandLength m
  | .jeq m => operandLength m
  | .jgt m => operandLength m
  | .jlt m => operandLength m
  | .j m => operandLength m
  | .and m => operandLength m
  | .or m => operandLength m
  | .jsub m => operandLength m
  | .rsub m => operandLength m
  | .ldch m => operandLength m
  | .stch m => operandLength m
  | .addf m => operandLength m
  | .subf m => operandLength m
  | .mulf m => operandLength m
  | .divf m => operandLength m
  | .ldb m => operandLength m
  | .lds m => operandLength m
  | .ldf m => operandLength m
  | .ldt m => operandLength m
  | .stb m => operandLength m
  | .sts m => operandLength m
  | .stf m => operandLength m
  | .stt m => operandLength m
  | .compf m => operandLength m
  | .lps m => operandLength m
  | .sti m => operandLength m
  | .rd m => operandLength m
  | .wd m => operandLength m
  | .td m => operandLength m
  | .stsw m => operandLength m
  | .ssk m => operandLength m
  | .addr _ _ => 2
  | .subr _ _ => 2
  | .mulr _ _ => 2
  | .divr _ _ => 2
  | .compr _ _ => 2
  | .shiftl _ _ => 2
  | .shiftr _ _ => 2
  | .rmo _ _ => 2
  | .svc _ _ => 2
  | .clear _ _ => 2
  | .tixr _ _ => 2
  | .float => 1
  | .fix => 1
  | .norm => 1
  | .sio => 1
  | .hio => 1
  | .tio => 1

/-- The four bytes of an instruction whose bits are `w`, numbered as spec/opcode_table.json numbers them (bit 0 the
least significant bit of the first byte, later bytes counting on), with every bit from `nbits` on 0. -/
def tableBytes (nbits w : Nat) : List Byte :=
  [BitVec.ofNat 8 (w % 2 ^ nbits), BitVec.ofNat 8 (w % 2 ^ nbits / 2 ^ 8),
   BitVec.ofNat 8 (w % 2 ^ nbits / 2 ^ 16), BitVec.ofNat 8 (w % 2 ^ nbits / 2 ^ 24)]

/-- The instruction the decoder reads from a word of the opcode table, none where it refuses. -/
def decodeTableWord (nbits w : Nat) : Option Instr :=
  match decode (tableBytes nbits w) with
  | .ok (i, _) => some i
  | .error _ => none

end Sys2Proof
end

