-- ==== Sys2Proof/Machine/Numeric.lean ====
section
/-! DEFINITION. The numeric conversions of spec/00_scope.md R7 and the byte order of words and floats
(spec/20_memory.md R62, R63). -/

namespace Sys2Proof.Machine

/-- `trunc24(z)`, the residue mod 2^24 (R7). -/
def trunc24 (z : Int) : Word := BitVec.ofInt 24 z

/-- `s24(v)`, the two's-complement view (R7). -/
def s24 (v : Word) : Int := v.toInt

/-- `addr20` of a 24-bit value (R7). -/
def addr20 (v : Word) : Addr := v.setWidth 20

/-- An address zero-extended into its 24-bit container (10_state.md R25). -/
def addrWord (a : Addr) : Word := a.setWidth 24

/-- `sext12(d)` reduced to 24 bits (R7, 41_address_resolver.md R152). -/
def sext12 (d : BitVec 12) : Word := d.signExtend 24

/-- `v[7:0]`. -/
def lowByte (v : Word) : Byte := v.extractLsb' 0 8

/-- `v` with bits 7:0 replaced by `b`: `v[23:8] ++ b` (42_load_store.md R176). -/
def withLowByte (v : Word) (b : Byte) : Word := v.extractLsb' 8 16 ++ b

/-- `tdiv`, the quotient rounded toward zero (43_integer_arith.md R203, D16). -/
def tdiv (a d : Int) : Int := Int.tdiv a d

/-- The bytes of a word, most significant first (20_memory.md R62). -/
def wordBytes (v : Word) : List Byte := [v.extractLsb' 16 8, v.extractLsb' 8 8, v.extractLsb' 0 8]

/-- The bytes of a float, most significant first (20_memory.md R63). -/
def floatBytes (v : Float48) : List Byte :=
  [v.extractLsb' 40 8, v.extractLsb' 32 8, v.extractLsb' 24 8,
   v.extractLsb' 16 8, v.extractLsb' 8 8, v.extractLsb' 0 8]

end Sys2Proof.Machine
end

