-- ==== Sys2Proof/Config.lean ====
section
/-! DEFINITION. What the spec leaves to a parameter of the model (spec/00_scope.md R5, 92_eei_decisions.md section 1)
or to nothing at all: the floating-point unit `FP`, the answers of the device bus `Dev`, the bytes of memory nothing has
written. Each is a constant with no body, so nothing can be proved of its value and every claim holds for all of
them. -/

namespace Sys2Proof.Config

/-- `FP.add` (46_float.md R255): free value, log entry 3. -/
opaque fpAdd : Float48 → Float48 → Float48

/-- `FP.sub a b`, a minus b (R255): free value, log entry 3. -/
opaque fpSub : Float48 → Float48 → Float48

/-- `FP.mul` (R255): free value, log entry 3. -/
opaque fpMul : Float48 → Float48 → Float48

/-- `FP.div a b`, a divided by b, total also for b zero (R255): free value, log entry 3. -/
opaque fpDiv : Float48 → Float48 → Float48

/-- `FP.cmp a b`: below, equal or above (R255): free value, log entry 3. -/
opaque fpCmp : Float48 → Float48 → Ordering

/-- `FP.from_int` of a signed 24-bit integer (R255): free value, log entry 3. -/
opaque fpFromInt : Int → Float48

/-- `FP.to_int` (R255), reduced to 24 bits by its callers: free value, log entry 3. -/
opaque fpToInt : Float48 → Int

/-- One operation of the device bus (00_scope.md R9). -/
inductive DevOp where
  /-- `Dev.read(n)`. -/
  | read (n : Byte)
  /-- `Dev.write(n, b)`. -/
  | write (n b : Byte)
  /-- `Dev.test(n)`. -/
  | test (n : Byte)
  deriving DecidableEq, Repr, Inhabited

/-- What the device bus answers to one operation (R9): whether it failed, the byte of a `read`, the readiness of a
`test`. An operation looks only at the parts it has. -/
structure DevAnswer where
  fails : Bool
  byte : Byte
  ready : Bool
  deriving DecidableEq, Repr, Inhabited

/-- The bus's answer to an operation after the operations already made, where no scripted answer is left
(93_implementation_defined.md U16, "the device's affair"): free value, log entry 4. -/
opaque devAnswer : List DevOp → DevOp → DevAnswer

/-- The byte an address holds that neither `MEM_INIT` nor the program has written (10_state.md R45,
93_implementation_defined.md U12, "any value"): free value, log entry 1. -/
opaque unwrittenByte : Addr → Byte

end Sys2Proof.Config
end

