-- ==== Sys2Proof/Machine/State.lean ====
section
/-! DEFINITION. The state of the machine as plain data (spec/10_state.md), with the inputs and outputs of the block
(spec/00_scope.md R9, R10), the reasons a step could stop, and the state after reset (R44). -/

namespace Sys2Proof.Machine

open Sys2Proof.Config (DevOp DevAnswer)

/-- SW.MODE (10_state.md R36): 0 is user, 1 is supervisor. -/
inductive Mode where
  | user
  | supervisor
  deriving DecidableEq, Repr, Inhabited

/-- The status word as six fields held separately (10_state.md R30). -/
structure StatusWord where
  mode : Mode
  idle : Bool
  id : BitVec 4
  cc : BitVec 2
  mask : BitVec 4
  icode : BitVec 8
  deriving DecidableEq, Repr, Inhabited

/-- The four interrupt classes in priority order (60_exceptions.md R300). -/
inductive IntClass where
  | svc
  | program
  | timer
  | io
  deriving DecidableEq, Repr, Inhabited

/-- PEND, one slot per class, each empty or holding a code (10_state.md R41). -/
structure Pending where
  svc : Option Byte
  program : Option Byte
  timer : Option Byte
  io : Option Byte
  deriving DecidableEq, Repr, Inhabited

/-- The general registers (10_state.md R20) and F (R23). -/
structure Regs where
  a : Word
  x : Word
  l : Word
  b : Word
  s : Word
  t : Word
  f : Float48
  deriving DecidableEq, Repr, Inhabited

/-- Memory (10_state.md R42): the bytes that `MEM_INIT` or the program has written, addresses strictly
rising; the operations and the canonical form stand in Machine/Memory.lean. -/
abbrev Memory := List Host.Cell

/-- Kind of a hooked access (00_scope.md R9). -/
inductive AccessKind where
  | read
  | write
  deriving DecidableEq, Repr, Inhabited

/-- Width of an access, 1, 3 or 6 bytes (20_memory.md R64). -/
inductive AccessWidth where
  | byte
  | word
  | float
  deriving DecidableEq, Repr, Inhabited

/-- One point of the access hook: the access it aborts (00_scope.md R9, `Hook(addr, kind, width)`). -/
structure HookPoint where
  addr : Addr
  kind : AccessKind
  width : AccessWidth
  deriving DecidableEq, Repr, Inhabited

/-- Address and length of a memory access (10_state.md R43). -/
structure Span where
  addr : Addr
  len : Nat
  deriving DecidableEq, Repr, Inhabited

/-- The memory spans kept for observability (10_state.md R43): of the last instruction fetched and of the last datum
read or written, the latter two never both set. -/
structure Spans where
  fetch : Option Span
  read : Option Span
  write : Option Span
  deriving DecidableEq, Repr, Inhabited

/-- The kinds of diagnostic events (00_scope.md R10). -/
inductive Report where
  | pcOverflow
  | illegalOpcode
  | privileged
  | invalidAddressing
  | divZero
  | badRegister
  | svcDisabled
  | unimplemented
  | deviceAbsent
  | deviceIoFail
  | rsubEmptyTrace
  deriving DecidableEq, Repr, Inhabited

/-- The device bus `Dev` seen from the core (00_scope.md R9; log entry 4): the registered device numbers, the answers
it will give to the operations to come, and the operations made so far, newest first. -/
structure DeviceBus where
  present : List Byte
  answers : List DevAnswer
  log : List DevOp
  deriving DecidableEq, Repr, Inhabited

/-- The whole state of the block. Each field names its rule in INVENTORY.md; `aborted`, `bus` and `ioIrq` are the
model's own (log entries 4, 6, 7). -/
structure State where
  regs : Regs
  pc : Addr
  sw : StatusWord
  timer : Word
  pend : Pending
  mem : Memory
  trace : List Word
  spans : Spans
  count : Nat
  reports : List Report
  bus : DeviceBus
  hook : List HookPoint
  ioIrq : List (Option Byte)
  aborted : Bool
  deriving DecidableEq, Repr

/-- Reasons the machine stops with a fault: none. "There is no other exit" than the end of a cycle (40_cycle.md R131),
so no constructor exists and nothing raises one. -/
inductive Fault where
  deriving DecidableEq, Repr

/-- Reasons an instruction has no meaning in the model. -/
inductive Refusal where
  /-- Raised by an arm of `exec` for an instruction the model gives no meaning; safe. No arm raises it. -/
  | notModelled (mnemonic : String)
  deriving DecidableEq, Repr

/-- All registers zero (10_state.md R44). -/
def Regs.zero : Regs := { a := 0#24, x := 0#24, l := 0#24, b := 0#24, s := 0#24, t := 0#24, f := 0#48 }

/-- The status word after reset: supervisor, every class disabled, CC equal (10_state.md R44). -/
def StatusWord.reset : StatusWord :=
  { mode := .supervisor, idle := false, id := 0#4, cc := 0b00#2, mask := 0b0000#4, icode := 0x00#8 }

/-- Every slot of PEND empty (10_state.md R44). -/
def Pending.empty : Pending := { svc := none, program := none, timer := none, io := none }

/-- The machine right after reset (10_state.md R44), with no memory listed and every input at its default
(log entries 1, 2, 4, 5, 6). -/
def State.reset : State :=
  { regs := Regs.zero
    pc := 0#20
    sw := StatusWord.reset
    timer := 0#24
    pend := Pending.empty
    mem := []
    trace := []
    spans := { fetch := none, read := none, write := none }
    count := 0
    reports := []
    bus := { present := [], answers := [], log := [] }
    hook := []
    ioIrq := []
    aborted := false }

end Sys2Proof.Machine
end

