-- ==== Sys2Proof/Machine/Flags.lean ====
section
/-! DEFINITION. The status word: packed form, condition code, interrupt-enable mask (spec/10_state.md R30 to R36). -/

namespace Sys2Proof.Machine

/-- MODE as its bit (10_state.md R30). -/
def Mode.bit (m : Mode) : BitVec 1 :=
  match m with
  | .user => 0#1
  | .supervisor => 1#1

/-- `packSW()` (10_state.md R32): ICODE, four zero bits, MASK, CC, ID, IDLE, MODE from bit 23 down. -/
def packSW (w : StatusWord) : Word :=
  w.icode ++ 0b0000#4 ++ w.mask ++ w.cc ++ w.id ++ BitVec.ofBool w.idle ++ w.mode.bit

/-- `unpackSW(w)` (10_state.md R33): bits 15:12 ignored, CC code `0b11` read as equal (D27). -/
def unpackSW (w : Word) : StatusWord :=
  { mode := if w.getLsbD 0 then .supervisor else .user
    idle := w.getLsbD 1
    id := w.extractLsb' 2 4
    cc := if w.extractLsb' 6 2 = 0b11#2 then 0b00#2 else w.extractLsb' 6 2
    mask := w.extractLsb' 8 4
    icode := w.extractLsb' 16 8 }

/-- The CC code of a delta's sign (10_state.md R34): `01` less, `10` greater, `00` equal. -/
def ccOf (z : Int) : BitVec 2 := if z < 0 then 0b01#2 else if 0 < z then 0b10#2 else 0b00#2

/-- The delta -1, 0 or +1 of a float comparison (10_state.md R34, 46_float.md R255). -/
def cmpDelta (o : Ordering) : Int :=
  match o with
  | .lt => -1
  | .eq => 0
  | .gt => 1

/-- `setCC(z)` (10_state.md R34). -/
def State.setCC (s : State) (z : Int) : State := { s with sw := { s.sw with cc := ccOf z } }

/-- `weight(c)` (10_state.md R35, D40). -/
def IntClass.weight (c : IntClass) : BitVec 4 :=
  match c with
  | .svc => 8#4
  | .program => 4#4
  | .timer => 2#4
  | .io => 1#4

/-- `enabled(c)` (10_state.md R35). -/
def State.enabled (s : State) (c : IntClass) : Bool := s.sw.mask &&& c.weight != 0#4

end Sys2Proof.Machine
end

