-- ==== Sys2Proof/Machine/Memory.lean ====
section
/-! DEFINITION. The memory store and its raw accessors (spec/20_memory.md R60 to R68): a list of (address, byte) pairs
with addresses strictly rising, each below 2^20. It lists exactly the bytes that MEM_INIT or the program has written:
an unlisted address holds no listed value, and reading it gives the free value `Config.unwrittenByte` (10_state.md R45,
log entry 1). -/

namespace Sys2Proof.Machine

/-- What has been written at key `a`, none where nothing has (10_state.md R45). -/
def Memory.lookup (m : Memory) (a : Nat) : Option Byte :=
  match m with
  | [] => none
  | (k, b) :: rest => if a < k then none else if a = k then some b else Memory.lookup rest a

/-- The memory with the byte at key `a` set to `v`, canonical form kept. -/
def Memory.insert (m : Memory) (a : Nat) (v : Byte) : Memory :=
  match m with
  | [] => [(a, v)]
  | (k, b) :: rest =>
    if a < k then (a, v) :: (k, b) :: rest
    else if a = k then (a, v) :: rest
    else (k, b) :: Memory.insert rest a v

/-- Canonical from key `lo` on: rising keys of the address space (R60). No entry can equal what an unlisted address
looks up as, which is no byte at all. -/
def Memory.wfFrom (lo : Nat) (m : Memory) : Bool :=
  match m with
  | [] => true
  | (k, _) :: rest => decide (lo ≤ k) && decide (k < 2 ^ 20) && Memory.wfFrom (k + 1) rest

/-- The canonical form holds. -/
def Memory.wf (m : Memory) : Bool := Memory.wfFrom 0 m

/-- `MEM[a]` (20_memory.md R61): the byte written there, else any value (10_state.md R45, log entry 1). -/
def Memory.byte (m : Memory) (a : Addr) : Byte :=
  match Memory.lookup m a.toNat with
  | some b => b
  | none => Config.unwrittenByte a

/-- `MEM[a] <- v`. -/
def Memory.setByte (m : Memory) (a : Addr) (v : Byte) : Memory := Memory.insert m a.toNat v

/-- `MemReadRaw(a, 3)`, big-endian and wrapping byte by byte (R62, R66, R68). -/
def Memory.readWord (m : Memory) (a : Addr) : Word :=
  Memory.byte m a ++ Memory.byte m (a + 1#20) ++ Memory.byte m (a + 2#20)

/-- `MemReadRaw(a, 6)` (R63, R68). -/
def Memory.readFloat (m : Memory) (a : Addr) : Float48 :=
  Memory.byte m a ++ Memory.byte m (a + 1#20) ++ Memory.byte m (a + 2#20) ++
    Memory.byte m (a + 3#20) ++ Memory.byte m (a + 4#20) ++ Memory.byte m (a + 5#20)

/-- Bytes stored at ascending addresses from `a`, each address reduced on its own (R61, R66, R68). -/
def Memory.writeBytes (m : Memory) (a : Addr) (bytes : List Byte) : Memory :=
  match bytes with
  | [] => m
  | v :: rest => Memory.writeBytes (Memory.setByte m a v) (a + 1#20) rest

/-- `MemWriteRaw(a, 3, v)` (R68). -/
def Memory.writeWord (m : Memory) (a : Addr) (v : Word) : Memory := Memory.writeBytes m a (wordBytes v)

/-- `MemWriteRaw(a, 6, v)` (R68). -/
def Memory.writeFloat (m : Memory) (a : Addr) (v : Float48) : Memory := Memory.writeBytes m a (floatBytes v)

end Sys2Proof.Machine
end

