-- ==== Sys2Proof/Machine/Ops.lean ====
section
/-! DEFINITION. The named operations of the machine: registers and selectors, reports, program conditions, hooked
accesses, the device bus, the interrupt subsystem (entry, return, drain), the timer and the program counter. -/

namespace Sys2Proof.Machine

open Sys2Proof.Config (DevOp DevAnswer)

/-! ### Registers -/

/-- `A <- v` (10_state.md R21). -/
def State.setA (s : State) (v : Word) : State := { s with regs := { s.regs with a := v } }
/-- `X <- v` (10_state.md R21). -/
def State.setX (s : State) (v : Word) : State := { s with regs := { s.regs with x := v } }
/-- `L <- v` (10_state.md R21). -/
def State.setL (s : State) (v : Word) : State := { s with regs := { s.regs with l := v } }
/-- `B <- v` (10_state.md R21). -/
def State.setB (s : State) (v : Word) : State := { s with regs := { s.regs with b := v } }
/-- `S <- v` (10_state.md R21). -/
def State.setS (s : State) (v : Word) : State := { s with regs := { s.regs with s := v } }
/-- `T <- v` (10_state.md R21). -/
def State.setT (s : State) (v : Word) : State := { s with regs := { s.regs with t := v } }
/-- `F <- v`, 48 raw bits (10_state.md R23). -/
def State.setF (s : State) (v : Float48) : State := { s with regs := { s.regs with f := v } }
/-- `PC <- v`, already reduced to 20 bits (10_state.md R25). -/
def State.setPc (s : State) (v : Addr) : State := { s with pc := v }
/-- All six fields of SW replaced (10_state.md R33). -/
def State.setSW (s : State) (v : StatusWord) : State := { s with sw := v }
/-- `TIMER <- v` (10_state.md R40). -/
def State.setTimer (s : State) (v : Word) : State := { s with timer := v }
/-- The memory replaced by the result of a store. -/
def State.setMem (s : State) (m : Memory) : State := { s with mem := m }

/-- The registers a selector can name (10_state.md R27). -/
inductive Reg where
  | a
  | x
  | l
  | b
  | s
  | t
  | f
  | pc
  | sw
  deriving DecidableEq, Repr

/-- The register of a selector, none for 7 and 10 to 15 (10_state.md R27, 30_encoding.md R100). -/
def regOf (i : Nibble) : Option Reg :=
  match i.toNat with
  | 0 => some .a
  | 1 => some .x
  | 2 => some .l
  | 3 => some .b
  | 4 => some .s
  | 5 => some .t
  | 6 => some .f
  | 8 => some .pc
  | 9 => some .sw
  | _ => none

/-- `x[i]` (10_state.md R28). -/
def State.readReg (s : State) (r : Reg) : Word :=
  match r with
  | .a => s.regs.a
  | .x => s.regs.x
  | .l => s.regs.l
  | .b => s.regs.b
  | .s => s.regs.s
  | .t => s.regs.t
  | .f => trunc24 (Config.fpToInt s.regs.f)
  | .pc => addrWord s.pc
  | .sw => packSW s.sw

/-- `x[i] <- v` (10_state.md R29). -/
def State.writeReg (s : State) (r : Reg) (v : Word) : State :=
  match r with
  | .a => s.setA v
  | .x => s.setX v
  | .l => s.setL v
  | .b => s.setB v
  | .s => s.setS v
  | .t => s.setT v
  | .f => s.setF (Config.fpFromInt (s24 v))
  | .pc => s.setPc (addr20 v)
  | .sw => s.setSW (unpackSW v)

/-! ### Reports, pending interrupts, program conditions -/

/-- `report(kind)` (00_scope.md R10): one event, newest first (log entry 9). -/
def State.report (s : State) (k : Report) : State := { s with reports := k :: s.reports }

/-- `PEND[c]` (10_state.md R41). -/
def Pending.get (p : Pending) (c : IntClass) : Option Byte :=
  match c with
  | .svc => p.svc
  | .program => p.program
  | .timer => p.timer
  | .io => p.io

/-- `PEND[c] <- v`, also for emptying a slot (10_state.md R41). -/
def Pending.set (p : Pending) (c : IntClass) (v : Option Byte) : Pending :=
  match c with
  | .svc => { p with svc := v }
  | .program => { p with program := v }
  | .timer => { p with timer := v }
  | .io => { p with io := v }

/-- `queue(c, code)`, overwriting a filled slot (60_exceptions.md R301). -/
def State.queue (s : State) (c : IntClass) (code : Byte) : State :=
  { s with pend := s.pend.set c (some code) }

/-- ILLEGAL_INSTRUCTION (60_exceptions.md R304). -/
def codeIllegalInstruction : Byte := 0x00#8
/-- PRIVILEGED_INSTRUCTION (60_exceptions.md R304). -/
def codePrivilegedInstruction : Byte := 0x01#8
/-- ADDR_OUT_OF_RANGE, the code of invalid addressing (60_exceptions.md R304, D12). -/
def codeAddrOutOfRange : Byte := 0x02#8

/-- `raise Program(code, kind)` (60_exceptions.md R303): a queued PROGRAM interrupt when the class is enabled, else a
report; the instruction has no effect and the cycle goes on. -/
def State.raiseProgram (s : State) (code : Byte) (kind : Report) : State :=
  if s.enabled .program then s.queue .program code else s.report kind

/-- The effect `k` of a privileged instruction, or the privilege violation in user mode (60_exceptions.md R318). -/
def State.supervisorOnly (s : State) (k : State → State) : State :=
  if s.sw.mode = .user then s.raiseProgram codePrivilegedInstruction .privileged else k s

/-- The effect `k` on the register selector `i` names, or the bad-register condition (44_register_ops.md R220). -/
def State.withReg (s : State) (i : Nibble) (k : Reg → State) : State :=
  match regOf i with
  | none => s.raiseProgram codeIllegalInstruction .badRegister
  | some r => k r

/-! ### Hooked memory accesses -/

/-- Bytes an access moves (20_memory.md R64). -/
def AccessWidth.bytes (w : AccessWidth) : Nat :=
  match w with
  | .byte => 1
  | .word => 3
  | .float => 6

/-- `Hook(addr, kind, width) = abort` (00_scope.md R9; log entry 5). -/
def State.hookAborts (s : State) (a : Addr) (k : AccessKind) (w : AccessWidth) : Bool :=
  decide (HookPoint.mk a k w ∈ s.hook)

/-- The cycle is ended by the hook with no effect of the instruction (20_memory.md R71; log entry 7). -/
def State.abortCycle (s : State) : State := { s with aborted := true }

/-- The read span set, the write span cleared (10_state.md R43; log entry 10). -/
def State.noteRead (s : State) (a : Addr) (w : AccessWidth) : State :=
  { s with spans := { s.spans with read := some ⟨a, w.bytes⟩, write := none } }

/-- The write span set, the read span cleared (10_state.md R43; log entry 10). -/
def State.noteWrite (s : State) (a : Addr) (w : AccessWidth) : State :=
  { s with spans := { s.spans with read := none, write := some ⟨a, w.bytes⟩ } }

/-- A hooked read at `a` followed by `k`, or the abort (20_memory.md R69). -/
def State.hookedRead (s : State) (a : Addr) (w : AccessWidth) (k : State → State) : State :=
  if s.hookAborts a .read w then s.abortCycle else k (s.noteRead a w)

/-- A hooked write of memory `m` at `a`, or the abort with nothing written (20_memory.md R70). -/
def State.hookedWrite (s : State) (a : Addr) (w : AccessWidth) (m : Memory) : State :=
  if s.hookAborts a .write w then s.abortCycle else (s.noteWrite a w).setMem m

/-! ### Device bus -/

/-- `Dev.present(n)` (00_scope.md R9). -/
def State.devicePresent (s : State) (n : Byte) : Bool := s.bus.present.contains n

/-- The answer to one device operation: the next scripted one, else the free value (log entry 4). -/
def State.deviceAnswer (s : State) (op : DevOp) : DevAnswer :=
  match s.bus.answers with
  | ans :: _ => ans
  | [] => Config.devAnswer s.bus.log op

/-- One device operation made: logged, its scripted answer used up (20_memory.md R79, 47_system_io.md R275). -/
def State.deviceDone (s : State) (op : DevOp) : State :=
  { s with bus := { s.bus with answers := s.bus.answers.tail, log := op :: s.bus.log } }

/-! ### Interrupt entry, return, drain -/

/-- `AREA_BASE[c]` (60_exceptions.md R308). -/
def areaBase (c : IntClass) : Addr :=
  match c with
  | .svc => 0x00100#20
  | .program => 0x00130#20
  | .timer => 0x00160#20
  | .io => 0x00190#20

/-- The memory with SW, PC and all registers saved into the slots of the work area at `base` by raw writes
(60_exceptions.md R309, R310). -/
def State.saveContext (s : State) (base : Addr) : Memory :=
  let m := Memory.writeWord s.mem (base + 6#20) (packSW s.sw)
  let m := Memory.writeWord m (base + 9#20) (addrWord s.pc)
  let m := Memory.writeWord m (base + 12#20) s.regs.a
  let m := Memory.writeWord m (base + 15#20) s.regs.x
  let m := Memory.writeWord m (base + 18#20) s.regs.l
  let m := Memory.writeWord m (base + 21#20) s.regs.b
  let m := Memory.writeWord m (base + 24#20) s.regs.s
  let m := Memory.writeWord m (base + 27#20) s.regs.t
  Memory.writeFloat m (base + 30#20) s.regs.f

/-- SW, PC and all registers loaded from the save slots of the block at `base` (60_exceptions.md R314,
47_system_io.md R273). -/
def State.loadContext (s : State) (base : Addr) : State :=
  { s with
    sw := unpackSW (Memory.readWord s.mem (base + 6#20))
    pc := addr20 (Memory.readWord s.mem (base + 9#20))
    regs :=
      { a := Memory.readWord s.mem (base + 12#20)
        x := Memory.readWord s.mem (base + 15#20)
        l := Memory.readWord s.mem (base + 18#20)
        b := Memory.readWord s.mem (base + 21#20)
        s := Memory.readWord s.mem (base + 24#20)
        t := Memory.readWord s.mem (base + 27#20)
        f := Memory.readFloat s.mem (base + 30#20) } }

/-- The nine hooked reads of LPS in order (47_system_io.md R273). -/
def contextReads (base : Addr) : List (Addr × AccessWidth) :=
  [(base + 6#20, .word), (base + 9#20, .word), (base + 12#20, .word), (base + 15#20, .word),
   (base + 18#20, .word), (base + 21#20, .word), (base + 24#20, .word), (base + 27#20, .word),
   (base + 30#20, .float)]

/-- LPS from `base`: all nine reads, then all writes; no register is written when a read aborts (47_system_io.md R273,
D28). -/
def State.restoreContext (s : State) (base : Addr) : State :=
  if (contextReads base).any (fun p => s.hookAborts p.1 .read p.2) then s.abortCycle
  else (s.loadContext base).noteRead (base + 30#20) .float

/-- `enter(c, code)`, taking an interrupt (60_exceptions.md R310): the context saved, SW and PC loaded from the first
two words of the work area, ICODE replaced, the slot emptied. -/
def State.enterInterrupt (s : State) (c : IntClass) (code : Byte) : State :=
  let m := s.saveContext (areaBase c)
  { s with
    mem := m
    sw := { unpackSW (Memory.readWord m (areaBase c)) with icode := code }
    pc := addr20 (Memory.readWord m (areaBase c + 3#20))
    pend := s.pend.set c none }

/-- The pending interrupt of highest priority (60_exceptions.md R311). -/
def Pending.highest (p : Pending) : Option (IntClass × Byte) :=
  match p.svc with
  | some code => some (.svc, code)
  | none =>
    match p.program with
    | some code => some (.program, code)
    | none =>
      match p.timer with
      | some code => some (.timer, code)
      | none =>
        match p.io with
        | some code => some (.io, code)
        | none => none

/-- `drain()` (60_exceptions.md R311): at most one interrupt entered, MASK not tested (R312). -/
def State.drain (s : State) : State :=
  match s.pend.highest with
  | some (c, code) => s.enterInterrupt c code
  | none => s

/-! ### Timer, IO request, end of the cycle -/

/-- The countdown of `tick()` (10_state.md R40, D24). -/
def timerTick (t : Word) : Word := if 0 < s24 t then t - 1#24 else t

/-- Timer-Tick (40_cycle.md R127): an expired timer queues TIMER with code 0 when the class is enabled. -/
def State.tick (s : State) : State :=
  if s24 (timerTick s.timer) ≤ 0 ∧ s.enabled .timer = true then
    (s.setTimer (timerTick s.timer)).queue .timer 0x00#8
  else s.setTimer (timerTick s.timer)

/-- The IO request input sampled once (60_exceptions.md R307; log entry 6): queued when IO is enabled, else dropped. -/
def State.sampleIo (s : State) : State :=
  match s.ioIrq with
  | [] => s
  | none :: rest => { s with ioIrq := rest }
  | some code :: rest =>
    if s.enabled .io then { s with ioIrq := rest, pend := s.pend.set .io (some code) }
    else { s with ioIrq := rest }

/-- The instruction counter advanced (40_cycle.md R132). -/
def State.countCycle (s : State) : State := { s with count := s.count + 1 }

/-- The stages after the effect: Timer-Tick, the IO sample, Interrupt-Drain (40_cycle.md R120). -/
def State.finishCycle (s : State) : State := s.tick.sampleIo.drain.countCycle

/-- The end of a cycle: an aborted one ends at once, with no tick, no sample and no drain (20_memory.md R71). -/
def State.endCycle (s : State) : State := if s.aborted then s else s.finishCycle

/-! ### Program counter and fetch -/

/-- `incPC()` (10_state.md R26). -/
def State.incPc (s : State) : State :=
  if s.pc = 0xFFFFF#20 then (s.setPc 0x00000#20).report .pcOverflow else s.setPc (s.pc + 1#20)

/-- `incPC()` once per byte consumed (40_cycle.md R121). -/
def State.advancePc (s : State) (n : Nat) : State :=
  match n with
  | 0 => s
  | n + 1 => s.incPc.advancePc n

/-- The bytes at PC that an instruction can take up, read raw, wrapping at the top of memory (40_cycle.md R121,
log entry 12). -/
def State.fetchBytes (s : State) : List Byte :=
  [Memory.byte s.mem s.pc, Memory.byte s.mem (s.pc + 1#20), Memory.byte s.mem (s.pc + 2#20),
   Memory.byte s.mem (s.pc + 3#20)]

/-- The state once `n` bytes have been fetched: PC past them, the fetch span set (10_state.md R43), a new cycle not
aborted. -/
def State.fetched (s : State) (n : Nat) : State :=
  let t := s.advancePc n
  { t with spans := { t.spans with fetch := some ⟨s.pc, n⟩ }, aborted := false }

/-! ### Reset event -/

/-- The reset event at a step boundary (70_reset_and_hazards.md R340): the values of 10_state.md R44, memory not
touched, the inputs of the block left as they are (log entry 14). -/
def State.resetEvent (s : State) : State :=
  { State.reset with
    mem := s.mem, reports := s.reports, bus := s.bus, hook := s.hook, ioIrq := s.ioIrq }

end Sys2Proof.Machine
end

