-- ==== Sys2Proof/Machine/Operands.lean ====
section
/-! DEFINITION. The address resolver and the operand forms (spec/41_address_resolver.md): from the flags and operand
field of a format-3/4 instruction to `mode`, `ta`, `ea`, then to the operand value, the store or the jump target. PC in
the state is the address of the next instruction. -/

namespace Sys2Proof.Machine

/-- The addressing mode given by n and i (R150). -/
inductive AddrMode where
  | sic
  | simple
  | immediate
  | indirect
  deriving DecidableEq, Repr

/-- What the resolver hands to dispatch (R156). -/
structure Resolved where
  mode : AddrMode
  ta : Word
  ea : Word
  deriving DecidableEq, Repr

/-- `mode` of the flags n and i (R150). -/
def modeOfFlags (n i : Bool) : AddrMode :=
  match n, i with
  | false, false => .sic
  | true, true => .simple
  | false, true => .immediate
  | true, false => .indirect

/-- `mode` of an operand (R150). -/
def operandMode (m : MemOperand) : AddrMode :=
  match m with
  | .sic _ _ => .sic
  | .f3 n i _ _ _ _ => modeOfFlags n i
  | .f4 n i _ _ _ _ => modeOfFlags n i

/-- Flag x of an operand (30_encoding.md R96). -/
def operandIndexed (m : MemOperand) : Bool :=
  match m with
  | .sic x _ => x
  | .f3 _ _ x _ _ _ => x
  | .f4 _ _ x _ _ _ => x

/-- Steps 1 and 2, `t1`: the operand field relocated, none for the error cases (R151, R152). -/
def relocate (m : MemOperand) (s : State) : Option Word :=
  match m with
  | .sic _ a => some (a.setWidth 24)
  | .f4 _ _ _ b p a => if b || p then none else some (a.setWidth 24)
  | .f3 _ _ _ b p d =>
    match b, p with
    | false, false => some (d.setWidth 24)
    | false, true => some (sext12 d + addrWord s.pc)
    | true, false => some (d.setWidth 24 + s.regs.b)
    | true, true => none

/-- Steps 3 and 4 from `t1`: indexing, then indirection by a raw read and, when indexed, X after it; none for indexed
immediate (R153, R154). -/
def indexAndDereference (mode : AddrMode) (x : Bool) (t1 : Word) (s : State) : Option Resolved :=
  let index : Word := if x then s.regs.x else 0#24
  match mode with
  | .sic => some ⟨.sic, t1 + index, t1 + index⟩
  | .simple => some ⟨.simple, t1 + index, t1 + index⟩
  | .immediate => if x then none else some ⟨.immediate, t1, t1⟩
  | .indirect => some ⟨.indirect, t1, Memory.readWord s.mem (addr20 t1) + index⟩

/-- `resolve` (R151 to R156), none for an addressing error (R155). -/
def resolve (m : MemOperand) (s : State) : Option Resolved :=
  match relocate m s with
  | none => none
  | some t1 => indexAndDereference (operandMode m) (operandIndexed m) t1 s

/-- The stage Resolve-Address before `k`: an addressing error raises the invalid-addressing condition and nothing else
runs (R155, 40_cycle.md R124). -/
def State.withOperand (s : State) (m : MemOperand) (k : Resolved → State) : State :=
  match resolve m s with
  | none => s.raiseProgram codeAddrOutOfRange .invalidAddressing
  | some r => k r

/-- `opval3` handed to `k` with the state after the read (R157). -/
def State.wordOperand (s : State) (r : Resolved) (k : Word → State → State) : State :=
  if r.mode = .immediate then k r.ta s
  else s.hookedRead (addr20 r.ea) .word fun s1 => k (Memory.readWord s1.mem (addr20 r.ea)) s1

/-- `opval1` handed to `k` with the state after the read (R157, D15). -/
def State.byteOperand (s : State) (r : Resolved) (k : Byte → State → State) : State :=
  if r.mode = .immediate then k (lowByte r.ta) s
  else s.hookedRead (addr20 r.ea) .byte fun s1 => k (Memory.byte s1.mem (addr20 r.ea)) s1

/-- `opval6` handed to `k` with the state after the read (R157, D15). -/
def State.floatOperand (s : State) (r : Resolved) (k : Float48 → State → State) : State :=
  if r.mode = .immediate then k (Config.fpFromInt (s24 r.ta)) s
  else s.hookedRead (addr20 r.ea) .float fun s1 => k (Memory.readFloat s1.mem (addr20 r.ea)) s1

/-- Resolve, then the word operand (R157). -/
def State.withWord (s : State) (m : MemOperand) (k : Word → State → State) : State :=
  s.withOperand m fun r => s.wordOperand r k

/-- Resolve, then the float operand (R157). -/
def State.withFloat (s : State) (m : MemOperand) (k : Float48 → State → State) : State :=
  s.withOperand m fun r => s.floatOperand r k

/-- `MemWrite(ea, 3, v)` (R158, 20_memory.md R70). -/
def State.storeWord (s : State) (m : MemOperand) (v : Word) : State :=
  s.withOperand m fun r =>
    s.hookedWrite (addr20 r.ea) .word (Memory.writeWord s.mem (addr20 r.ea) v)

/-- `MemWrite(ea, 1, v)` (R158, 20_memory.md R70). -/
def State.storeByte (s : State) (m : MemOperand) (v : Byte) : State :=
  s.withOperand m fun r =>
    s.hookedWrite (addr20 r.ea) .byte (Memory.writeBytes s.mem (addr20 r.ea) [v])

/-- `MemWrite(ea, 6, v)` (R158, 20_memory.md R70). -/
def State.storeFloat (s : State) (m : MemOperand) (v : Float48) : State :=
  s.withOperand m fun r =>
    s.hookedWrite (addr20 r.ea) .float (Memory.writeFloat s.mem (addr20 r.ea) v)

/-- A jump taken when `taken`, its target resolved in either case (R159, 45_control_transfer.md R246). -/
def State.jumpIf (s : State) (m : MemOperand) (taken : Bool) : State :=
  s.withOperand m fun r => if taken then s.setPc (addr20 r.ea) else s

/-- A privileged instruction whose operand is a device number: resolve, privilege check, operand byte
(47_system_io.md R275). -/
def State.withDevice (s : State) (m : MemOperand) (k : Byte → State → State) : State :=
  s.withOperand m fun r => s.supervisorOnly fun s => s.byteOperand r k

end Sys2Proof.Machine
end

