-- ==== Sys2Proof/Machine/ControlTransfer.lean ====
section
/-! DEFINITION. Control transfer (spec/45_control_transfer.md R240 to R248). -/

namespace Sys2Proof.Machine

/-- J m: `PC <- addr20(ea)` (R240). -/
def execJ (m : MemOperand) (s : State) : Host.Outcome State Fault Refusal :=
  .next (s.jumpIf m true)

/-- JEQ m: the jump taken when CC = `0b00` (R241). -/
def execJeq (m : MemOperand) (s : State) : Host.Outcome State Fault Refusal :=
  .next (s.jumpIf m (s.sw.cc == 0b00#2))

/-- JGT m: the jump taken when CC = `0b10` (R242). -/
def execJgt (m : MemOperand) (s : State) : Host.Outcome State Fault Refusal :=
  .next (s.jumpIf m (s.sw.cc == 0b10#2))

/-- JLT m: the jump taken when CC = `0b01` (R243). -/
def execJlt (m : MemOperand) (s : State) : Host.Outcome State Fault Refusal :=
  .next (s.jumpIf m (s.sw.cc == 0b01#2))

/-- The return address pushed on the call-trace stack (R244, 10_state.md R43). -/
def State.pushTrace (s : State) (v : Word) : State := { s with trace := v :: s.trace }

/-- The call-trace stack popped, with a report when it is empty (R245, D37). -/
def State.popTrace (s : State) : State :=
  match s.trace with
  | [] => s.report .rsubEmptyTrace
  | _ :: rest => { s with trace := rest }

/-- JSUB m: `L <- PC; PC <- addr20(ea)`, the target resolved before L is written, L pushed on the trace (R244). -/
def execJsub (m : MemOperand) (s : State) : Host.Outcome State Fault Refusal :=
  .next (s.withOperand m fun r =>
    ((s.setL (addrWord s.pc)).setPc (addr20 r.ea)).pushTrace (addrWord s.pc))

/-- RSUB: `PC <- addr20(L)`, the operand resolved and ignored (R245). -/
def execRsub (m : MemOperand) (s : State) : Host.Outcome State Fault Refusal :=
  .next (s.withOperand m fun _ => (s.setPc (addr20 s.regs.l)).popTrace)

end Sys2Proof.Machine
end

