-- ==== Sys2Proof/Machine/FloatOps.lean ====
section
/-! DEFINITION. Floating-point instructions over the parameter `FP` (spec/46_float.md R255 to R265). -/

namespace Sys2Proof.Machine

/-- ADDF m: `F <- FP.add(F, opval6)` (R256). -/
def execAddf (m : MemOperand) (s : State) : Host.Outcome State Fault Refusal :=
  .next (s.withFloat m fun v s => s.setF (Config.fpAdd s.regs.f v))

/-- SUBF m: `F <- FP.sub(F, opval6)` (R257). -/
def execSubf (m : MemOperand) (s : State) : Host.Outcome State Fault Refusal :=
  .next (s.withFloat m fun v s => s.setF (Config.fpSub s.regs.f v))

/-- MULF m: `F <- FP.mul(F, opval6)` (R258). -/
def execMulf (m : MemOperand) (s : State) : Host.Outcome State Fault Refusal :=
  .next (s.withFloat m fun v s => s.setF (Config.fpMul s.regs.f v))

/-- DIVF m: `F <- FP.div(F, opval6)` (R259). -/
def execDivf (m : MemOperand) (s : State) : Host.Outcome State Fault Refusal :=
  .next (s.withFloat m fun v s => s.setF (Config.fpDiv s.regs.f v))

/-- COMPF m: `setCC(FP.cmp(F, opval6))` (R260). -/
def execCompf (m : MemOperand) (s : State) : Host.Outcome State Fault Refusal :=
  .next (s.withFloat m fun v s => s.setCC (cmpDelta (Config.fpCmp s.regs.f v)))

/-- FLOAT: `report(UNIMPLEMENTED)`, no state changes (R261, D21). -/
def execFloat (s : State) : Host.Outcome State Fault Refusal :=
  .next (s.report .unimplemented)

/-- FIX: `report(UNIMPLEMENTED)`, no state changes (R262, D21). -/
def execFix (s : State) : Host.Outcome State Fault Refusal :=
  .next (s.report .unimplemented)

/-- NORM: `report(UNIMPLEMENTED)`, no state changes (R263, D21). -/
def execNorm (s : State) : Host.Outcome State Fault Refusal :=
  .next (s.report .unimplemented)

end Sys2Proof.Machine
end

