-- ==== Sys2Proof/Machine/IntArith.lean ====
section
/-! DEFINITION. Integer arithmetic, logic and compare with a memory operand (spec/43_integer_arith.md R200 to R209).
ADD, SUB, MUL on 24-bit vectors keep the low 24 bits of the exact result (R209). -/

namespace Sys2Proof.Machine

/-- The quotient of two words as signed numbers, rounded toward zero and reduced to 24 bits (R203). -/
def divWord (a d : Word) : Word := trunc24 (tdiv (s24 a) (s24 d))

/-- X incremented, then CC set from the new X against the word `v` reads in the state after the increment (R207,
44_register_ops.md R230). -/
def State.incrementAndCompare (s : State) (v : State → Word) : State :=
  let s1 := s.setX (s.regs.x + 1#24)
  s1.setCC (s24 s1.regs.x - s24 (v s1))

/-- ADD m: `A <- trunc24(A + opval3)` (R200). -/
def execAdd (m : MemOperand) (s : State) : Host.Outcome State Fault Refusal :=
  .next (s.withWord m fun v s => s.setA (s.regs.a + v))

/-- SUB m: `A <- trunc24(A - opval3)` (R201). -/
def execSub (m : MemOperand) (s : State) : Host.Outcome State Fault Refusal :=
  .next (s.withWord m fun v s => s.setA (s.regs.a - v))

/-- MUL m: `A <- trunc24(A * opval3)` (R202). -/
def execMul (m : MemOperand) (s : State) : Host.Outcome State Fault Refusal :=
  .next (s.withWord m fun v s => s.setA (s.regs.a * v))

/-- DIV m: `A <- trunc24(tdiv(s24(A), s24(opval3)))`; a zero divisor is a report only (R203). -/
def execDiv (m : MemOperand) (s : State) : Host.Outcome State Fault Refusal :=
  .next (s.withWord m fun v s =>
    if s24 v = 0 then s.report .divZero else s.setA (divWord s.regs.a v))

/-- AND m: `A <- A & opval3` (R204). -/
def execAnd (m : MemOperand) (s : State) : Host.Outcome State Fault Refusal :=
  .next (s.withWord m fun v s => s.setA (s.regs.a &&& v))

/-- OR m: `A <- A | opval3` (R205). -/
def execOr (m : MemOperand) (s : State) : Host.Outcome State Fault Refusal :=
  .next (s.withWord m fun v s => s.setA (s.regs.a ||| v))

/-- COMP m: `setCC(s24(A) - s24(opval3))` (R206). -/
def execComp (m : MemOperand) (s : State) : Host.Outcome State Fault Refusal :=
  .next (s.withWord m fun v s => s.setCC (s24 s.regs.a - s24 v))

/-- TIX m: operand read, X incremented, the new X compared with the operand (R207). -/
def execTix (m : MemOperand) (s : State) : Host.Outcome State Fault Refusal :=
  .next (s.withWord m fun v s => s.incrementAndCompare fun _ => v)

end Sys2Proof.Machine
end

