-- ==== Sys2Proof/Machine/LoadStore.lean ====
section
/-! DEFINITION. Loads and stores (spec/42_load_store.md R170 to R188). -/

namespace Sys2Proof.Machine

/-- LDA m: `A <- opval3` (R170). -/
def execLda (m : MemOperand) (s : State) : Host.Outcome State Fault Refusal :=
  .next (s.withWord m fun v s => s.setA v)

/-- LDX m: `X <- opval3` (R171). -/
def execLdx (m : MemOperand) (s : State) : Host.Outcome State Fault Refusal :=
  .next (s.withWord m fun v s => s.setX v)

/-- LDL m: `L <- opval3` (R172). -/
def execLdl (m : MemOperand) (s : State) : Host.Outcome State Fault Refusal :=
  .next (s.withWord m fun v s => s.setL v)

/-- LDB m: `B <- opval3` (R173). -/
def execLdb (m : MemOperand) (s : State) : Host.Outcome State Fault Refusal :=
  .next (s.withWord m fun v s => s.setB v)

/-- LDS m: `S <- opval3` (R174). -/
def execLds (m : MemOperand) (s : State) : Host.Outcome State Fault Refusal :=
  .next (s.withWord m fun v s => s.setS v)

/-- LDT m: `T <- opval3` (R175). -/
def execLdt (m : MemOperand) (s : State) : Host.Outcome State Fault Refusal :=
  .next (s.withWord m fun v s => s.setT v)

/-- LDCH m: `A <- A[23:8] ++ opval1` (R176). -/
def execLdch (m : MemOperand) (s : State) : Host.Outcome State Fault Refusal :=
  .next (s.withOperand m fun r => s.byteOperand r fun v s => s.setA (withLowByte s.regs.a v))

/-- LDF m: `F <- opval6` (R177). -/
def execLdf (m : MemOperand) (s : State) : Host.Outcome State Fault Refusal :=
  .next (s.withFloat m fun v s => s.setF v)

/-- STA m: `MemWrite(ea, 3, A)` (R179). -/
def execSta (m : MemOperand) (s : State) : Host.Outcome State Fault Refusal :=
  .next (s.storeWord m s.regs.a)

/-- STX m: `MemWrite(ea, 3, X)` (R180). -/
def execStx (m : MemOperand) (s : State) : Host.Outcome State Fault Refusal :=
  .next (s.storeWord m s.regs.x)

/-- STL m: `MemWrite(ea, 3, L)` (R181). -/
def execStl (m : MemOperand) (s : State) : Host.Outcome State Fault Refusal :=
  .next (s.storeWord m s.regs.l)

/-- STB m: `MemWrite(ea, 3, B)` (R182). -/
def execStb (m : MemOperand) (s : State) : Host.Outcome State Fault Refusal :=
  .next (s.storeWord m s.regs.b)

/-- STS m: `MemWrite(ea, 3, S)` (R183). -/
def execSts (m : MemOperand) (s : State) : Host.Outcome State Fault Refusal :=
  .next (s.storeWord m s.regs.s)

/-- STT m: `MemWrite(ea, 3, T)` (R184). -/
def execStt (m : MemOperand) (s : State) : Host.Outcome State Fault Refusal :=
  .next (s.storeWord m s.regs.t)

/-- STCH m: `MemWrite(ea, 1, A[7:0])` (R185). -/
def execStch (m : MemOperand) (s : State) : Host.Outcome State Fault Refusal :=
  .next (s.storeByte m (lowByte s.regs.a))

/-- STSW m: `MemWrite(ea, 3, packSW())` (R186). -/
def execStsw (m : MemOperand) (s : State) : Host.Outcome State Fault Refusal :=
  .next (s.storeWord m (packSW s.sw))

/-- STF m: `MemWrite(ea, 6, F)` (R187). -/
def execStf (m : MemOperand) (s : State) : Host.Outcome State Fault Refusal :=
  .next (s.storeFloat m s.regs.f)

end Sys2Proof.Machine
end

