-- ==== Sys2Proof/Machine/RegisterOps.lean ====
section
/-! DEFINITION. Register-to-register instructions of format 2 (spec/44_register_ops.md R220 to R232). -/

namespace Sys2Proof.Machine

/-- The effect `k` on the two registers the fields name, both checked first (R220). -/
def State.withRegs (s : State) (r1 r2 : Nibble) (k : Reg → Reg → State) : State :=
  s.withReg r1 fun src => s.withReg r2 fun dst => k src dst

/-- `x[r2] <- op x[r2] x[r1]` (R221, R222, R224). -/
def State.combineRegs (s : State) (r1 r2 : Nibble) (op : Word → Word → Word) : State :=
  s.withRegs r1 r2 fun src dst => s.writeReg dst (op (s.readReg dst) (s.readReg src))

/-- The shift count of SHIFTL and SHIFTR, `r2 + 1` (30_encoding.md R103). -/
def shiftCount (r2 : Nibble) : Nat := r2.toNat + 1

/-- ADDR r1,r2: `x[r2] <- trunc24(x[r2] + x[r1])` (R221). -/
def execAddr (r1 r2 : Nibble) (s : State) : Host.Outcome State Fault Refusal :=
  .next (s.combineRegs r1 r2 fun d v => d + v)

/-- SUBR r1,r2: `x[r2] <- trunc24(x[r2] - x[r1])` (R222). -/
def execSubr (r1 r2 : Nibble) (s : State) : Host.Outcome State Fault Refusal :=
  .next (s.combineRegs r1 r2 fun d v => d - v)

/-- MULR r1,r2: `x[r2] <- trunc24(x[r2] * x[r1])` (R224). -/
def execMulr (r1 r2 : Nibble) (s : State) : Host.Outcome State Fault Refusal :=
  .next (s.combineRegs r1 r2 fun d v => d * v)

/-- DIVR r1,r2: `x[r2] <- trunc24(tdiv(s24(x[r2]), s24(x[r1])))`; a zero divisor raises the program condition with
code 0x00 (R223). -/
def execDivr (r1 r2 : Nibble) (s : State) : Host.Outcome State Fault Refusal :=
  .next (s.withRegs r1 r2 fun src dst =>
    if s24 (s.readReg src) = 0 then s.raiseProgram codeIllegalInstruction .divZero
    else s.writeReg dst (divWord (s.readReg dst) (s.readReg src)))

/-- COMPR r1,r2: `setCC(s24(x[r1]) - s24(x[r2]))` (R225). -/
def execCompr (r1 r2 : Nibble) (s : State) : Host.Outcome State Fault Refusal :=
  .next (s.withRegs r1 r2 fun q w => s.setCC (s24 (s.readReg q) - s24 (s.readReg w)))

/-- SHIFTL r1,n: rotate left by `r2 + 1` (R226). -/
def execShiftl (r1 r2 : Nibble) (s : State) : Host.Outcome State Fault Refusal :=
  .next (s.withReg r1 fun r => s.writeReg r ((s.readReg r).rotateLeft (shiftCount r2)))

/-- SHIFTR r1,n: arithmetic shift right by `r2 + 1` (R227). -/
def execShiftr (r1 r2 : Nibble) (s : State) : Host.Outcome State Fault Refusal :=
  .next (s.withReg r1 fun r => s.writeReg r ((s.readReg r).sshiftRight (shiftCount r2)))

/-- RMO r1,r2: `x[r2] <- x[r1]` (R228). -/
def execRmo (r1 r2 : Nibble) (s : State) : Host.Outcome State Fault Refusal :=
  .next (s.withRegs r1 r2 fun src dst => s.writeReg dst (s.readReg src))

/-- CLEAR r1: `x[r1] <- 0`, `r2` ignored (R229). -/
def execClear (r1 _r2 : Nibble) (s : State) : Host.Outcome State Fault Refusal :=
  .next (s.withReg r1 fun r => s.writeReg r 0#24)

/-- TIXR r1: X incremented, the new X compared with `x[r1]` read after the increment, `r2` ignored (R230). -/
def execTixr (r1 _r2 : Nibble) (s : State) : Host.Outcome State Fault Refusal :=
  .next (s.withReg r1 fun r => s.incrementAndCompare fun s => s.readReg r)

end Sys2Proof.Machine
end

