-- ==== Sys2Proof/Machine/SystemIO.lean ====
section
/-! DEFINITION. Device, system and privileged instructions (spec/47_system_io.md R270 to R281). -/

namespace Sys2Proof.Machine

/-- RD m: one byte read from the device into `A[7:0]`; an absent or failing device is a report (R270). -/
def execRd (m : MemOperand) (s : State) : Host.Outcome State Fault Refusal :=
  .next (s.withDevice m fun n s =>
    if s.devicePresent n then
      if (s.deviceAnswer (.read n)).fails then (s.deviceDone (.read n)).report .deviceIoFail
      else (s.deviceDone (.read n)).setA (withLowByte s.regs.a (s.deviceAnswer (.read n)).byte)
    else s.report .deviceAbsent)

/-- WD m: `A[7:0]` written to the device; an absent or failing device is a report (R271). -/
def execWd (m : MemOperand) (s : State) : Host.Outcome State Fault Refusal :=
  .next (s.withDevice m fun n s =>
    if s.devicePresent n then
      if (s.deviceAnswer (.write n (lowByte s.regs.a))).fails then
        (s.deviceDone (.write n (lowByte s.regs.a))).report .deviceIoFail
      else s.deviceDone (.write n (lowByte s.regs.a))
    else s.report .deviceAbsent)

/-- TD m: CC less when the device is ready, equal when it is absent, fails or is not ready (R272). -/
def execTd (m : MemOperand) (s : State) : Host.Outcome State Fault Refusal :=
  .next (s.withDevice m fun n s =>
    if s.devicePresent n then
      if (s.deviceAnswer (.test n)).fails then ((s.deviceDone (.test n)).setCC 0).report .deviceIoFail
      else (s.deviceDone (.test n)).setCC (if (s.deviceAnswer (.test n)).ready then -1 else 0)
    else (s.setCC 0).report .deviceAbsent)

/-- LPS m: SW, PC and all registers restored from the save slots of the block at `ea` (R273). -/
def execLps (m : MemOperand) (s : State) : Host.Outcome State Fault Refusal :=
  .next (s.withOperand m fun r => s.supervisorOnly fun s => s.restoreContext (addr20 r.ea))

/-- STI m: `TIMER <- opval3` (R274). -/
def execSti (m : MemOperand) (s : State) : Host.Outcome State Fault Refusal :=
  .next (s.withOperand m fun r =>
    s.supervisorOnly fun s => s.wordOperand r fun v s => s.setTimer v)

/-- SVC n: an SVC interrupt with code `r1` queued when the class is enabled, else a report; `r2` ignored (R276). The
drain of the same cycle enters it (60_exceptions.md R310). -/
def execSvc (r1 _r2 : Nibble) (s : State) : Host.Outcome State Fault Refusal :=
  .next (if s.enabled .svc then s.queue .svc (r1.setWidth 8) else s.report .svcDisabled)

/-- SSK m: operand resolved, then in supervisor mode `report(UNIMPLEMENTED)` only (R277, D21). -/
def execSsk (m : MemOperand) (s : State) : Host.Outcome State Fault Refusal :=
  .next (s.withOperand m fun _ => s.supervisorOnly fun s => s.report .unimplemented)

/-- SIO: in supervisor mode `report(UNIMPLEMENTED)` only (R278, D21). -/
def execSio (s : State) : Host.Outcome State Fault Refusal :=
  .next (s.supervisorOnly fun s => s.report .unimplemented)

/-- HIO: in supervisor mode `report(UNIMPLEMENTED)` only (R279, D21). -/
def execHio (s : State) : Host.Outcome State Fault Refusal :=
  .next (s.supervisorOnly fun s => s.report .unimplemented)

/-- TIO: in supervisor mode `report(UNIMPLEMENTED)` only, CC included (R280, D21). -/
def execTio (s : State) : Host.Outcome State Fault Refusal :=
  .next (s.supervisorOnly fun s => s.report .unimplemented)

end Sys2Proof.Machine
end

