-- ==== Sys2Proof/Machine/Step.lean ====
section
/-! DEFINITION. One step is one cycle (spec/40_cycle.md R120): fetch, decode, the instruction (resolve, privilege
check, effect), then the end of the cycle (tick, IO sample, drain). -/

namespace Sys2Proof.Machine

/-- One cycle (R120). A byte string that is no instruction consumes one byte and raises the illegal-opcode condition
(R123). -/
def step (s : State) : Host.Outcome State Fault Refusal :=
  match decode s.fetchBytes with
  | .ok (i, _) =>
    match exec i (s.fetched (instrLength i)) with
    | .next t => .next t.endCycle
    | .fault r => .fault r
    | .refused r => .refused r
  | .error _ =>
    .next ((s.fetched 1).raiseProgram codeIllegalInstruction .illegalOpcode).endCycle

/-- The state with one instruction of the opcode table, its bits above `nbits` zero, stored as four bytes at PC, where
`step` fetches next (log entry 13). -/
def State.withFetchWord (s : State) (nbits w : Nat) : State :=
  s.setMem (Memory.writeBytes s.mem s.pc (tableBytes nbits w))

end Sys2Proof.Machine
end

