-- ==== Sys2Proof/Safety.lean ====
section
/-! DEFINITION. What counts as a good state, and the terms the statements use: the invariant, which instructions may
write what, and the shape of an operand rule, each written from the rules of spec/ and not from the meanings. -/

namespace Sys2Proof.Machine

/-- The invariant of the machine: the memory is in canonical form, CC holds one of the three codes of 10_state.md R30,
and the read and write spans are never both set (10_state.md R43). -/
def GoodState (s : State) : Prop :=
  Memory.wf s.mem = true ∧ s.sw.cc ≠ 0b11#2 ∧ ¬ (s.spans.read.isSome = true ∧ s.spans.write.isSome = true)

/-! ### Which instructions do what -/

/-- The operand of the 42 format-3/4 instructions (30_encoding.md R99). -/
def memOperandOf (i : Instr) : Option MemOperand :=
  match i with
  | .lda m | .ldx m | .ldl m | .sta m | .stx m | .stl m | .add m | .sub m | .mul m | .div m | .comp m | .tix m
  | .jeq m | .jgt m | .jlt m | .j m | .and m | .or m | .jsub m | .rsub m | .ldch m | .stch m
  | .addf m | .subf m | .mulf m | .divf m | .ldb m | .lds m | .ldf m | .ldt m | .stb m | .sts m | .stf m | .stt m
  | .compf m | .lps m | .sti m | .rd m | .wd m | .td m | .stsw m | .ssk m => some m
  | _ => none

/-- The register fields a format-2 instruction uses (30_encoding.md R103). -/
def usedSelectors (i : Instr) : List Nibble :=
  match i with
  | .addr r1 r2 | .subr r1 r2 | .mulr r1 r2 | .divr r1 r2 | .compr r1 r2 | .rmo r1 r2 => [r1, r2]
  | .shiftl r1 _ | .shiftr r1 _ | .clear r1 _ | .tixr r1 _ => [r1]
  | _ => []

/-- The selector a format-2 instruction writes through (44_register_ops.md R221 to R229). -/
def destSelector (i : Instr) : Option Nibble :=
  match i with
  | .addr _ r2 | .subr _ r2 | .mulr _ r2 | .divr _ r2 | .rmo _ r2 => some r2
  | .shiftl r1 _ | .shiftr r1 _ | .clear r1 _ => some r1
  | _ => none

/-- The nine stores (42_load_store.md R179 to R187). -/
def isStore (i : Instr) : Bool :=
  match i with
  | .sta _ | .stx _ | .stl _ | .stb _ | .sts _ | .stt _ | .stch _ | .stsw _ | .stf _ => true
  | _ => false

/-- The instructions that reach `unpackSW` (10_state.md R30): LPS and a format-2 write to selector 9. -/
def unpacksStatus (i : Instr) : Bool :=
  match i with
  | .lps _ => true
  | i => destSelector i == some 9#4

/-- The comparisons and TD, the callers of `setCC` (10_state.md R34). -/
def setsCondition (i : Instr) : Bool :=
  match i with
  | .comp _ | .compr _ _ | .compf _ | .tix _ | .tixr _ _ | .td _ => true
  | _ => false

/-- The writers of X (42_load_store.md R189). -/
def writesIndex (i : Instr) : Bool :=
  match i with
  | .ldx _ | .tix _ | .tixr _ _ | .lps _ => true
  | i => destSelector i == some 1#4

/-- The writers of PC in the effect stage (45_control_transfer.md R248). -/
def writesProgramCounter (i : Instr) : Bool :=
  match i with
  | .j _ | .jeq _ | .jgt _ | .jlt _ | .jsub _ | .rsub _ | .lps _ => true
  | i => destSelector i == some 8#4

/-! ### Terms of the rules -/

/-- `raise Program(code, kind)` (60_exceptions.md R303): with MASK bit 2 set the PROGRAM slot holds the code, else one
report. -/
def programCondition (s : State) (code : Byte) (kind : Report) : State :=
  if s.sw.mask.getLsbD 2 = true then { s with pend := { s.pend with program := some code } }
  else { s with reports := kind :: s.reports }

/-- The word at an address, big-endian (20_memory.md R62). -/
def wordAt (m : Memory) (a : Addr) : Word :=
  BitVec.ofNat 24
    (65536 * (Memory.byte m a).toNat + 256 * (Memory.byte m (a + 1#20)).toNat + (Memory.byte m (a + 2#20)).toNat)

/-- The float at an address, most significant byte first (20_memory.md R63). -/
def floatAt (m : Memory) (a : Addr) : Float48 :=
  BitVec.ofNat 48
    (2 ^ 40 * (Memory.byte m a).toNat + 2 ^ 32 * (Memory.byte m (a + 1#20)).toNat +
      2 ^ 24 * (Memory.byte m (a + 2#20)).toNat + 2 ^ 16 * (Memory.byte m (a + 3#20)).toNat +
      2 ^ 8 * (Memory.byte m (a + 4#20)).toNat + (Memory.byte m (a + 5#20)).toNat)

/-- The three bytes of a word, the most significant first (20_memory.md R62). -/
def bytesOfWord (v : Word) : List Byte :=
  [BitVec.ofNat 8 (v.toNat / 65536), BitVec.ofNat 8 (v.toNat / 256), BitVec.ofNat 8 v.toNat]

/-- The six bytes of a float, the most significant first (20_memory.md R63). -/
def bytesOfFloat (v : Float48) : List Byte :=
  [BitVec.ofNat 8 (v.toNat / 2 ^ 40), BitVec.ofNat 8 (v.toNat / 2 ^ 32), BitVec.ofNat 8 (v.toNat / 2 ^ 24),
   BitVec.ofNat 8 (v.toNat / 2 ^ 16), BitVec.ofNat 8 (v.toNat / 2 ^ 8), BitVec.ofNat 8 v.toNat]

/-- A word with its low byte replaced (42_load_store.md R176). -/
def replaceLowByte (v : Word) (b : Byte) : Word := BitVec.ofNat 24 (v.toNat / 256 * 256 + b.toNat)

/-- `opval3` (41_address_resolver.md R157). -/
def wordValue (s : State) (r : Resolved) : Word :=
  if r.mode = .immediate then r.ta else wordAt s.mem (addr20 r.ea)

/-- `opval1` (41_address_resolver.md R157). -/
def byteValue (s : State) (r : Resolved) : Byte :=
  if r.mode = .immediate then BitVec.ofNat 8 r.ta.toNat else Memory.byte s.mem (addr20 r.ea)

/-- `opval6` (41_address_resolver.md R157). -/
def floatValue (s : State) (r : Resolved) : Float48 :=
  if r.mode = .immediate then Config.fpFromInt r.ta.toInt else floatAt s.mem (addr20 r.ea)

/-- The state with the operand read recorded in the spans (10_state.md R43), which no rule reads; an immediate operand
makes no read. -/
def readNoted (s : State) (r : Resolved) (w : AccessWidth) : State :=
  if r.mode = .immediate then s
  else { s with spans := { s.spans with read := some ⟨addr20 r.ea, w.bytes⟩, write := none } }

/-- The operand read makes an access the hook aborts (20_memory.md R69). -/
def ReadAborts (s : State) (r : Resolved) (w : AccessWidth) : Prop :=
  r.mode ≠ .immediate ∧ HookPoint.mk (addr20 r.ea) .read w ∈ s.hook

/-- The operand read is immediate or the hook lets it proceed (20_memory.md R69). -/
def ReadProceeds (s : State) (r : Resolved) (w : AccessWidth) : Prop :=
  r.mode = .immediate ∨ HookPoint.mk (addr20 r.ea) .read w ∉ s.hook

/-! ### Shapes of rules -/

/-- An instruction with one operand read and then an effect: its opcode number, the addressing error, the abort, and
its completion (42_load_store.md R178, 43_integer_arith.md R208, 46_float.md R264). `value` gives the operand. -/
def OperandRule {α : Type} (mk : MemOperand → Instr) (op : Byte) (w : AccessWidth)
    (value : State → Resolved → α) (effect : α → State → State) : Prop :=
  ∀ (m : MemOperand) (s : State),
    encode (mk m) = encodeOperand op m ∧
    (resolve m s = none → exec (mk m) s = .next (programCondition s 0x02#8 .invalidAddressing)) ∧
    ∀ r, resolve m s = some r →
      (ReadAborts s r w → exec (mk m) s = .next { s with aborted := true }) ∧
      (ReadProceeds s r w → exec (mk m) s = .next (effect (value s r) (readNoted s r w)))

/-- A store of `bytes` at `ea`: its opcode number, the addressing error, the abort, and its completion with the bytes
stored, every other byte of memory and every other field but the spans as before (42_load_store.md R188). -/
def StoreRule (mk : MemOperand → Instr) (op : Byte) (w : AccessWidth) (bytes : State → List Byte) : Prop :=
  ∀ (m : MemOperand) (s : State),
    encode (mk m) = encodeOperand op m ∧
    (resolve m s = none → exec (mk m) s = .next (programCondition s 0x02#8 .invalidAddressing)) ∧
    ∀ r, resolve m s = some r →
      (HookPoint.mk (addr20 r.ea) .write w ∈ s.hook → exec (mk m) s = .next { s with aborted := true }) ∧
      (HookPoint.mk (addr20 r.ea) .write w ∉ s.hook → Memory.wf s.mem = true →
        ∃ t, exec (mk m) s = .next t ∧
          t = { s with
            mem := t.mem
            spans := { s.spans with read := none, write := some ⟨addr20 r.ea, (bytes s).length⟩ } } ∧
          (∀ k (h : k < (bytes s).length),
            Memory.byte t.mem (addr20 r.ea + BitVec.ofNat 20 k) = (bytes s)[k]) ∧
          ∀ a : Addr, (∀ k, k < (bytes s).length → a ≠ addr20 r.ea + BitVec.ofNat 20 k) →
            Memory.byte t.mem a = Memory.byte s.mem a)

/-- A jump taken under `taken`: its opcode number, the addressing error whether or not it is taken, and PC alone
replaced or nothing changed (45_control_transfer.md R246). -/
def JumpRule (mk : MemOperand → Instr) (op : Byte) (taken : State → Prop) : Prop :=
  ∀ (m : MemOperand) (s : State),
    encode (mk m) = encodeOperand op m ∧
    (resolve m s = none → exec (mk m) s = .next (programCondition s 0x02#8 .invalidAddressing)) ∧
    ∀ r, resolve m s = some r →
      (taken s → exec (mk m) s = .next { s with pc := addr20 r.ea }) ∧
      (¬ taken s → exec (mk m) s = .next s)

/-- A format-2 instruction `x[r2] <- f(x[r2], x[r1])`: its encoding and its completion for every pair of registers
(44_register_ops.md R231). -/
def CombineRule (mk : Nibble → Nibble → Instr) (op : Byte) (f : Word → Word → Word) : Prop :=
  ∀ (r1 r2 : Nibble) (s : State),
    encode (mk r1 r2) = [op, r1 ++ r2] ∧
    ∀ q w, regOf r1 = some q → regOf r2 = some w →
      exec (mk r1 r2) s = .next (s.writeReg w (f (s.readReg w) (s.readReg q)))

/-- A device instruction in supervisor mode, `n` the device number read: what it does when device `n` is absent, and
what when it is present (47_system_io.md R275). -/
def DeviceRule (mk : MemOperand → Instr) (op : Byte) (absent : State → State)
    (operation : Byte → State → State) : Prop :=
  ∀ (m : MemOperand) (s : State) (r : Resolved),
    encode (mk m) = encodeOperand op m ∧
    (resolve m s = some r → s.sw.mode = .supervisor → ReadAborts s r .byte →
      exec (mk m) s = .next { s with aborted := true }) ∧
    (resolve m s = some r → s.sw.mode = .supervisor → ReadProceeds s r .byte → byteValue s r ∉ s.bus.present →
      exec (mk m) s = .next (absent (readNoted s r .byte))) ∧
    (resolve m s = some r → s.sw.mode = .supervisor → ReadProceeds s r .byte → byteValue s r ∈ s.bus.present →
      exec (mk m) s = .next (operation (byteValue s r) (readNoted s r .byte)))

/-- The device bus after one operation: it is logged and its scripted answer, if any, is used up
(20_memory.md R79: exactly one operation). -/
def busAfter (s : State) (op : Config.DevOp) : DeviceBus :=
  { s.bus with answers := s.bus.answers.drop 1, log := op :: s.bus.log }

end Sys2Proof.Machine
end

