-- ==== Sys2Proof/Certificates/Slice0/Obligations.lean ====
section
/-! DEFINITION. The statements for the provers. Each docstring names the rules of spec/ it formalises. -/

open Sys2Proof Sys2Proof.Machine

/-! ### Reset and the invariant -/

/-- 10_state.md R44, 70_reset_and_hazards.md R340: what the reset event leaves, from any state, and the state after
reset. F, IDLE, ID, CC, ICODE, TIMER, PEND and the non-architectural state are the spec's decision D31 (log entry 2);
an empty memory in `State.reset` is the model's choice (log entry 1). -/
def Obligations.ResetEventState : Prop :=
  (∀ s : State,
    let t := s.resetEvent
    t.regs = { a := 0, x := 0, l := 0, b := 0, s := 0, t := 0, f := 0 } ∧ t.pc = 0 ∧
    t.sw = { mode := .supervisor, idle := false, id := 0, cc := 0, mask := 0, icode := 0 } ∧
    (packSW t.sw).toNat = 1 ∧ t.timer = 0 ∧
    t.pend = { svc := none, program := none, timer := none, io := none } ∧
    t.trace = [] ∧ t.spans = { fetch := none, read := none, write := none } ∧ t.count = 0 ∧
    t.mem = s.mem ∧ t.bus = s.bus ∧ t.hook = s.hook ∧ t.ioIrq = s.ioIrq) ∧
  State.reset.resetEvent = State.reset ∧ State.reset.mem = []

/-- The invariant holds after reset. -/
def Obligations.ResetSatisfiesInvariant : Prop := GoodState State.reset

/-- Every step keeps the invariant: memory canonical, CC never `0b11` (10_state.md R30, R33), read and write spans
mutually exclusive (10_state.md R43). -/
def Obligations.StepKeepsInvariant : Prop :=
  ∀ s t : State, GoodState s → step s = .next t → GoodState t

/-! ### Encoding -/

/-- 30_encoding.md R90 to R98: decoding an encoded well-formed instruction gives it back, with the bytes after it. -/
def Obligations.DecodeOfEncode : Prop :=
  ∀ (i : Instr) (rest : List Byte), i.wellFormed = true → decode (encode i ++ rest) = .ok (i, rest)

/-- 30_encoding.md R97, R98: what decodes is well formed and its bytes are its encoding: no bit is dropped. -/
def Obligations.EncodeOfDecode : Prop :=
  ∀ (bytes rest : List Byte) (i : Instr),
    decode bytes = .ok (i, rest) → i.wellFormed = true ∧ bytes = encode i ++ rest

/-- 30_encoding.md R101: with three more bytes at hand the decoder refuses exactly the 71 listed first bytes. -/
def Obligations.IllegalOpcodeBytes : Prop :=
  ∀ (b0 : Byte) (rest : List Byte), 3 ≤ rest.length →
    ((∃ e, decode (b0 :: rest) = .error e) ↔
      let n := b0.toNat
      (0x8C ≤ n ∧ n ≤ 0x8F) ∨ (0x90 ≤ n ∧ n ≤ 0xBB ∧ n % 4 ≠ 0) ∨ (0xBC ≤ n ∧ n ≤ 0xBF) ∨
      (0xC0 ≤ n ∧ n ≤ 0xCB ∧ n % 4 ≠ 0) ∨ (0xCC ≤ n ∧ n ≤ 0xCF) ∨ (0xE4 ≤ n ∧ n ≤ 0xE7) ∨
      (0xF0 ≤ n ∧ n ≤ 0xFB ∧ n % 4 ≠ 0) ∨ (0xFC ≤ n ∧ n ≤ 0xFF)) ∧
    ∀ e, decode (b0 :: rest) = .error e → e = .illegalOpcode b0

/-- Words the spec writes out (41_address_resolver.md R161, 44_register_ops.md R223, 45_control_transfer.md R244,
46_float.md R260, R261, 47_system_io.md R273, R276) decode to the instructions they stand for. -/
def Obligations.SpecWordsDecode : Prop :=
  decode [0x03, 0x20, 0x0A] = .ok (.lda (.f3 true true false false true 0x00A), []) ∧
  decode [0x02, 0x80, 0x50] = .ok (.lda (.f3 true false true false false 0x050), []) ∧
  decode [0x01, 0x10, 0x12, 0x34] = .ok (.lda (.f4 false true false false false 0x01234), []) ∧
  decode [0x00, 0x80, 0x30] = .ok (.lda (.sic true 0x0030), []) ∧
  decode [0x4B, 0x10, 0x20, 0x00] = .ok (.jsub (.f4 true true false false false 0x02000), []) ∧
  decode [0x8B, 0x02, 0x00] = .ok (.compf (.f3 true true false false false 0x200), []) ∧
  decode [0xD3, 0x01, 0x00] = .ok (.lps (.f3 true true false false false 0x100), []) ∧
  decode [0x9C, 0x10] = .ok (.divr 1 0, []) ∧
  decode [0xB0, 0x30] = .ok (.svc 3 0, []) ∧
  decode [0xC0] = .ok (.float, []) ∧
  decode [0xFF] = .error (.illegalOpcode 0xFF)

/-! ### The cycle -/

/-- 40_cycle.md R120: where the bytes at PC decode to an instruction, the step is that instruction run with PC past its
bytes, then, unless the hook aborted it, the tick, the IO sample, the drain and the count of the cycle. -/
def Obligations.StepRunsDecodedInstruction : Prop :=
  ∀ (s : State) (i : Instr) (rest : List Byte), decode s.fetchBytes = .ok (i, rest) →
    i.wellFormed = true ∧
    ∃ t, exec i (s.fetched (instrLength i)) = .next t ∧
      step s = .next (if t.aborted = true then t else t.tick.sampleIo.drain.countCycle)

/-- 40_cycle.md R121, 10_state.md R26: fetching n bytes moves PC by n mod 2^20, reports one wrap when it crosses the top
of memory, records the fetch span and changes nothing else. -/
def Obligations.FetchAdvancesProgramCounter : Prop :=
  ∀ (s : State) (n : Nat), n ≤ 4 →
    s.fetched n = { s with
      pc := BitVec.ofNat 20 (s.pc.toNat + n)
      reports := if 2 ^ 20 ≤ s.pc.toNat + n then .pcOverflow :: s.reports else s.reports
      spans := { s.spans with fetch := some ⟨s.pc, n⟩ }
      aborted := false }

/-- 10_state.md R26. -/
def Obligations.IncPcWrapsWithReport : Prop :=
  ∀ s : State,
    (s.pc.toNat = 0xFFFFF → s.incPc = { s with pc := 0, reports := .pcOverflow :: s.reports }) ∧
    (s.pc.toNat ≠ 0xFFFFF → s.incPc = { s with pc := BitVec.ofNat 20 (s.pc.toNat + 1) })

/-- 40_cycle.md R123: an illegal opcode byte consumes one byte and raises the program condition with code 0x00; the
cycle then ticks and drains. -/
def Obligations.IllegalOpcodeCycle : Prop :=
  ∀ (s : State) (e : DecodeError), decode s.fetchBytes = .error e →
    step s = .next (programCondition (s.fetched 1) 0x00#8 .illegalOpcode).tick.sampleIo.drain.countCycle

/-- 40_cycle.md R131: every cycle ends in a next state, either completed (it is counted) or aborted by the hook. -/
def Obligations.EveryCycleEnds : Prop :=
  ∀ s : State, ∃ t, step s = .next t ∧
    ((t.aborted = false ∧ t.count = s.count + 1) ∨ (t.aborted = true ∧ t.count = s.count))

/-- 20_memory.md R71: a cycle the hook aborts has applied nothing but the advance of PC by the fetch. -/
def Obligations.AbortedCycleAppliesNothing : Prop :=
  ∀ s t : State, step s = .next t → t.aborted = true →
    ∃ i rest, decode s.fetchBytes = .ok (i, rest) ∧ t = { s.fetched (instrLength i) with aborted := true }

/-- 40_cycle.md R127, 10_state.md R40: the tick counts down to zero and no further, and queues TIMER with code 0 when
the timer is at or below zero and MASK bit 1 is set. -/
def Obligations.TimerTickCountsDown : Prop :=
  ∀ s : State,
    let z : Int := if 0 < s.timer.toInt then s.timer.toInt - 1 else s.timer.toInt
    s.tick.timer.toInt = z ∧
    s.tick = { s with
      timer := s.tick.timer
      pend := if z ≤ 0 ∧ s.sw.mask.getLsbD 1 = true then { s.pend with timer := some 0x00 } else s.pend }

/-- 60_exceptions.md R307: one entry of the request input is used per completed cycle; a request is queued with its code
when MASK bit 0 is set, else dropped. -/
def Obligations.IoRequestSampled : Prop :=
  ∀ s : State,
    (s.ioIrq = [] → s.sampleIo = s) ∧
    (∀ rest, s.ioIrq = none :: rest → s.sampleIo = { s with ioIrq := rest }) ∧
    (∀ code rest, s.ioIrq = some code :: rest → s.sw.mask.getLsbD 0 = true →
      s.sampleIo = { s with ioIrq := rest, pend := { s.pend with io := some code } }) ∧
    (∀ code rest, s.ioIrq = some code :: rest → s.sw.mask.getLsbD 0 = false →
      s.sampleIo = { s with ioIrq := rest })

/-! ### Status word -/

/-- 10_state.md R32. -/
def Obligations.PackedStatusWord : Prop :=
  ∀ w : StatusWord,
    (packSW w).toNat =
      w.icode.toNat * 65536 + w.mask.toNat * 256 + w.cc.toNat * 64 + w.id.toNat * 4 +
        w.idle.toNat * 2 + (if w.mode = .supervisor then 1 else 0)

/-- 10_state.md R33: unpacking a packed word changes nothing for a legal CC; packing an unpacked word clears bits 15:12
and reads the CC code `0b11` as equal. -/
def Obligations.StatusWordRoundTrip : Prop :=
  (∀ w : StatusWord, w.cc ≠ 0b11#2 → unpackSW (packSW w) = w) ∧
  ∀ v : Word, packSW (unpackSW v) =
    if v.extractLsb' 6 2 = 0b11#2 then v &&& 0xFF0F3F#24 else v &&& 0xFF0FFF#24

/-- 10_state.md R34: an instruction that is no comparison, not TD, and reaches no `unpackSW` leaves CC. -/
def Obligations.ConditionCodeWriters : Prop :=
  ∀ (i : Instr) (s t : State), setsCondition i = false → unpacksStatus i = false →
    exec i s = .next t → t.sw.cc = s.sw.cc

/-- 10_state.md R30, R36: MODE, IDLE, ID, MASK and ICODE change only through `unpackSW`. -/
def Obligations.StatusFieldWriters : Prop :=
  ∀ (i : Instr) (s t : State), unpacksStatus i = false → exec i s = .next t →
    t.sw.mode = s.sw.mode ∧ t.sw.idle = s.sw.idle ∧ t.sw.id = s.sw.id ∧ t.sw.mask = s.sw.mask ∧
      t.sw.icode = s.sw.icode

/-! ### Privilege -/

/-- 60_exceptions.md R316 to R318: in user mode no instruction makes a device operation or loads the timer. -/
def Obligations.UserModeKeepsBusAndTimer : Prop :=
  ∀ (i : Instr) (s t : State), s.sw.mode = .user → exec i s = .next t → t.bus = s.bus ∧ t.timer = s.timer

/-- 60_exceptions.md R317, R318: in user mode each of the nine privileged instructions, its operand resolved, raises the
program condition with code 0x01 and does nothing else. -/
def Obligations.PrivilegedTrapInUserMode : Prop :=
  ∀ s : State, s.sw.mode = .user →
    (∀ i ∈ [Instr.sio, Instr.hio, Instr.tio], exec i s = .next (programCondition s 0x01#8 .privileged)) ∧
    ∀ (m : MemOperand) (r : Resolved), resolve m s = some r →
      ∀ i ∈ [Instr.lps m, Instr.sti m, Instr.rd m, Instr.wd m, Instr.td m, Instr.ssk m],
        exec i s = .next (programCondition s 0x01#8 .privileged)

/-! ### What only some instructions change -/

/-- 42_load_store.md R179 to R188, 20_memory.md R64: no instruction but the nine stores changes a byte of memory. -/
def Obligations.OnlyStoresWriteMemory : Prop :=
  ∀ (i : Instr) (s t : State), isStore i = false → exec i s = .next t → t.mem = s.mem

/-- 42_load_store.md R189: X changes only by LDX, TIX, TIXR, LPS and a format-2 write to selector 1. -/
def Obligations.IndexRegisterWriters : Prop :=
  ∀ (i : Instr) (s t : State), writesIndex i = false → exec i s = .next t → t.regs.x = s.regs.x

/-- 45_control_transfer.md R248: PC changes only by a jump, RSUB, LPS and a format-2 write to selector 8. -/
def Obligations.ProgramCounterWriters : Prop :=
  ∀ (i : Instr) (s t : State), writesProgramCounter i = false → exec i s = .next t → t.pc = s.pc

/-! ### Memory -/

/-- 20_memory.md R61 to R63, R66, R68: the raw accesses of 1, 3 and 6 bytes in a canonical memory, each byte
address reduced mod 2^20, the byte at the lowest address the most significant; every other byte keeps its value. -/
def Obligations.RawAccessBytes : Prop :=
  ∀ (m : Memory) (a : Addr), Memory.wf m = true →
    Memory.readWord m a = wordAt m a ∧ Memory.readFloat m a = floatAt m a ∧
    (∀ (v : Byte) (x : Addr), Memory.byte (Memory.writeBytes m a [v]) x = if x = a then v else Memory.byte m x) ∧
    (∀ v : Word,
      (∀ k (h : k < (bytesOfWord v).length),
        Memory.byte (Memory.writeWord m a v) (BitVec.ofNat 20 (a.toNat + k)) = (bytesOfWord v)[k]) ∧
      ∀ x : Addr, (∀ k, k < 3 → x ≠ BitVec.ofNat 20 (a.toNat + k)) →
        Memory.byte (Memory.writeWord m a v) x = Memory.byte m x) ∧
    ∀ v : Float48,
      (∀ k (h : k < (bytesOfFloat v).length),
        Memory.byte (Memory.writeFloat m a v) (BitVec.ofNat 20 (a.toNat + k)) = (bytesOfFloat v)[k]) ∧
      ∀ x : Addr, (∀ k, k < 6 → x ≠ BitVec.ofNat 20 (a.toNat + k)) →
        Memory.byte (Memory.writeFloat m a v) x = Memory.byte m x

/-- 20_memory.md R62, R63: writing back the word or the float just read leaves every byte of memory as it reads, and
reading back what was written gives it. -/
def Obligations.ReadAndWriteBack : Prop :=
  ∀ (m : Memory) (a : Addr), Memory.wf m = true →
    (∀ x : Addr, Memory.byte (Memory.writeWord m a (Memory.readWord m a)) x = Memory.byte m x) ∧
    (∀ x : Addr, Memory.byte (Memory.writeFloat m a (Memory.readFloat m a)) x = Memory.byte m x) ∧
    (∀ v : Word, Memory.readWord (Memory.writeWord m a v) a = v) ∧
    ∀ v : Float48, Memory.readFloat (Memory.writeFloat m a v) a = v

/-! ### Address resolver -/

/-- 41_address_resolver.md R152, R153: the resolver fails exactly for format 4 with b or p, format 3 with b and p, and
indexed immediate. -/
def Obligations.ResolverErrorCases : Prop :=
  ∀ (m : MemOperand) (s : State), resolve m s = none ↔
    match m with
    | .sic _ _ => False
    | .f3 n i x b p _ => (b = true ∧ p = true) ∨ (n = false ∧ i = true ∧ x = true)
    | .f4 n i x b p _ => (b = true ∨ p = true) ∨ (n = false ∧ i = true ∧ x = true)

/-- 41_address_resolver.md R150 to R154: mode, target address and effective address as integers reduced mod 2^24, PC the
address of the next instruction. -/
def Obligations.ResolverAddresses : Prop :=
  ∀ (m : MemOperand) (s : State) (r : Resolved), resolve m s = some r →
    let mode : AddrMode :=
      match m with
      | .sic _ _ => .sic
      | .f3 n i _ _ _ _ | .f4 n i _ _ _ _ =>
        if n = true then (if i = true then .simple else .indirect)
        else (if i = true then .immediate else .sic)
    let relocated : Int :=
      match m with
      | .sic _ a => a.toNat
      | .f4 _ _ _ _ _ a => a.toNat
      | .f3 _ _ _ b p d =>
        if p = true then (if d.toNat < 2048 then (d.toNat : Int) else d.toNat - 4096) + s.pc.toNat
        else if b = true then d.toNat + s.regs.b.toNat
        else d.toNat
    let index : Int :=
      match m with
      | .sic x _ | .f3 _ _ x _ _ _ | .f4 _ _ x _ _ _ => if x = true then s.regs.x.toNat else 0
    r.mode = mode ∧
    (r.ta.toNat : Int) = (relocated + if mode = .simple ∨ mode = .sic then index else 0) % 2 ^ 24 ∧
    (mode = .indirect →
      (r.ea.toNat : Int) = ((wordAt s.mem (BitVec.ofNat 20 r.ta.toNat)).toNat + index) % 2 ^ 24) ∧
    (mode ≠ .indirect → r.ea = r.ta)

/-! ### Program conditions -/

/-- 60_exceptions.md R303: with PROGRAM enabled the code is queued and nothing reported, with PROGRAM disabled one report
and nothing queued; nothing else changes. -/
def Obligations.ProgramConditionProcedure : Prop :=
  ∀ (s : State) (code : Byte) (kind : Report),
    (s.sw.mask.getLsbD 2 = true →
      s.raiseProgram code kind = { s with pend := { s.pend with program := some code } }) ∧
    (s.sw.mask.getLsbD 2 = false → s.raiseProgram code kind = { s with reports := kind :: s.reports })

/-- 41_address_resolver.md R155, 40_cycle.md R124, R130: an addressing error in any of the 42 format-3/4 instructions, in
either mode, raises the program condition with code 0x02 and nothing else. -/
def Obligations.AddressingErrorCondition : Prop :=
  ∀ (i : Instr) (m : MemOperand) (s : State), memOperandOf i = some m → resolve m s = none →
    exec i s = .next (programCondition s 0x02#8 .invalidAddressing)

/-- 44_register_ops.md R220: a used register field of 7 or 10 to 15 raises the program condition with code 0x00 and
nothing else. -/
def Obligations.BadRegisterCondition : Prop :=
  ∀ (i : Instr) (n : Nibble) (s : State), n ∈ usedSelectors i → (n.toNat = 7 ∨ 10 ≤ n.toNat) →
    exec i s = .next (programCondition s 0x00#8 .badRegister)

/-! ### Loads and stores -/

/-- 42_load_store.md R170 to R175: LDA, LDX, LDL, LDB, LDS, LDT. -/
def Obligations.WordLoads : Prop :=
  OperandRule .lda 0x00#8 .word wordValue (fun v u => { u with regs := { u.regs with a := v } }) ∧
  OperandRule .ldx 0x04#8 .word wordValue (fun v u => { u with regs := { u.regs with x := v } }) ∧
  OperandRule .ldl 0x08#8 .word wordValue (fun v u => { u with regs := { u.regs with l := v } }) ∧
  OperandRule .ldb 0x68#8 .word wordValue (fun v u => { u with regs := { u.regs with b := v } }) ∧
  OperandRule .lds 0x6C#8 .word wordValue (fun v u => { u with regs := { u.regs with s := v } }) ∧
  OperandRule .ldt 0x74#8 .word wordValue (fun v u => { u with regs := { u.regs with t := v } })

/-- 42_load_store.md R176, R177: LDCH replaces the low byte of A, LDF moves 48 bits into F. -/
def Obligations.ByteAndFloatLoads : Prop :=
  OperandRule .ldch 0x50#8 .byte byteValue
    (fun v u => { u with regs := { u.regs with a := replaceLowByte u.regs.a v } }) ∧
  OperandRule .ldf 0x70#8 .float floatValue (fun v u => { u with regs := { u.regs with f := v } })

/-- 42_load_store.md R179 to R184, R186: STA, STX, STL, STB, STS, STT, STSW. -/
def Obligations.WordStores : Prop :=
  StoreRule .sta 0x0C#8 .word (fun s => bytesOfWord s.regs.a) ∧
  StoreRule .stx 0x10#8 .word (fun s => bytesOfWord s.regs.x) ∧
  StoreRule .stl 0x14#8 .word (fun s => bytesOfWord s.regs.l) ∧
  StoreRule .stb 0x78#8 .word (fun s => bytesOfWord s.regs.b) ∧
  StoreRule .sts 0x7C#8 .word (fun s => bytesOfWord s.regs.s) ∧
  StoreRule .stt 0x84#8 .word (fun s => bytesOfWord s.regs.t) ∧
  StoreRule .stsw 0xE8#8 .word (fun s => bytesOfWord (packSW s.sw))

/-- 42_load_store.md R185, R187: STCH stores one byte, STF six. -/
def Obligations.ByteAndFloatStores : Prop :=
  StoreRule .stch 0x54#8 .byte (fun s => [BitVec.ofNat 8 s.regs.a.toNat]) ∧
  StoreRule .stf 0x80#8 .float (fun s => bytesOfFloat s.regs.f)

/-! ### Integer arithmetic and compare with a memory operand -/

/-- 43_integer_arith.md R200, R201, R202, R204, R205: ADD, SUB, MUL on exact integers reduced mod 2^24, AND, OR bit by
bit; CC and every other register unchanged. -/
def Obligations.IntegerArithmetic : Prop :=
  OperandRule .add 0x18#8 .word wordValue
    (fun v u => { u with regs := { u.regs with a := BitVec.ofNat 24 (u.regs.a.toNat + v.toNat) } }) ∧
  OperandRule .sub 0x1C#8 .word wordValue
    (fun v u => { u with regs := { u.regs with a := BitVec.ofInt 24 ((u.regs.a.toNat : Int) - v.toNat) } }) ∧
  OperandRule .mul 0x20#8 .word wordValue
    (fun v u => { u with regs := { u.regs with a := BitVec.ofNat 24 (u.regs.a.toNat * v.toNat) } }) ∧
  OperandRule .and 0x40#8 .word wordValue
    (fun v u => { u with regs := { u.regs with a := BitVec.ofNat 24 (u.regs.a.toNat &&& v.toNat) } }) ∧
  OperandRule .or 0x44#8 .word wordValue
    (fun v u => { u with regs := { u.regs with a := BitVec.ofNat 24 (u.regs.a.toNat ||| v.toNat) } })

/-- 43_integer_arith.md R203: DIV, the signed quotient toward zero, or a report and nothing else for a zero divisor,
whatever the MASK. -/
def Obligations.DivideWord : Prop :=
  OperandRule .div 0x24#8 .word wordValue
    (fun v u =>
      if v = 0 then { u with reports := .divZero :: u.reports }
      else { u with regs := { u.regs with
        a := BitVec.ofInt 24 (u.regs.a.toInt.sign * v.toInt.sign * (u.regs.a.toInt.natAbs / v.toInt.natAbs : Nat)) } })

/-- 43_integer_arith.md R206: COMP sets CC to the signed order of A and the operand and changes nothing else. -/
def Obligations.CompareWord : Prop :=
  OperandRule .comp 0x28#8 .word wordValue
    (fun v u => { u with sw := { u.sw with
      cc := if u.regs.a.toInt < v.toInt then 0b01 else if u.regs.a.toInt = v.toInt then 0b00 else 0b10 } })

/-- 43_integer_arith.md R207: TIX increments X mod 2^24 and compares the new X with the operand. -/
def Obligations.IncrementAndCompareWord : Prop :=
  OperandRule .tix 0x2C#8 .word wordValue
    (fun v u =>
      let x : Word := BitVec.ofNat 24 (u.regs.x.toNat + 1)
      { u with
        regs := { u.regs with x := x }
        sw := { u.sw with cc := if x.toInt < v.toInt then 0b01 else if x.toInt = v.toInt then 0b00 else 0b10 } })

/-! ### Register instructions -/

/-- 10_state.md R27, R28, R29: which register each selector names, what a read by selector gives and what a write does. -/
def Obligations.SelectorAccess : Prop :=
  ([0, 1, 2, 3, 4, 5, 6, 7, 8, 9, 10, 11, 12, 13, 14, 15] : List Nibble).map regOf =
    [some .a, some .x, some .l, some .b, some .s, some .t, some .f, none, some .pc, some .sw,
     none, none, none, none, none, none] ∧
  ∀ (s : State) (v : Word),
    s.readReg .a = s.regs.a ∧ s.readReg .x = s.regs.x ∧ s.readReg .l = s.regs.l ∧ s.readReg .b = s.regs.b ∧
    s.readReg .s = s.regs.s ∧ s.readReg .t = s.regs.t ∧
    s.readReg .f = BitVec.ofInt 24 (Config.fpToInt s.regs.f) ∧
    s.readReg .pc = BitVec.ofNat 24 s.pc.toNat ∧ s.readReg .sw = packSW s.sw ∧
    s.writeReg .a v = { s with regs := { s.regs with a := v } } ∧
    s.writeReg .x v = { s with regs := { s.regs with x := v } } ∧
    s.writeReg .l v = { s with regs := { s.regs with l := v } } ∧
    s.writeReg .b v = { s with regs := { s.regs with b := v } } ∧
    s.writeReg .s v = { s with regs := { s.regs with s := v } } ∧
    s.writeReg .t v = { s with regs := { s.regs with t := v } } ∧
    s.writeReg .f v = { s with regs := { s.regs with f := Config.fpFromInt v.toInt } } ∧
    s.writeReg .pc v = { s with pc := BitVec.ofNat 20 v.toNat } ∧
    s.writeReg .sw v = { s with sw := unpackSW v }

/-- 44_register_ops.md R221, R222, R224: ADDR, SUBR, MULR on exact integers reduced mod 2^24. -/
def Obligations.RegisterArithmetic : Prop :=
  CombineRule .addr 0x90#8 (fun d v => BitVec.ofNat 24 (d.toNat + v.toNat)) ∧
  CombineRule .subr 0x94#8 (fun d v => BitVec.ofInt 24 ((d.toNat : Int) - v.toNat)) ∧
  CombineRule .mulr 0x98#8 (fun d v => BitVec.ofNat 24 (d.toNat * v.toNat))

/-- 44_register_ops.md R223: DIVR, the signed quotient toward zero, or the program condition with code 0x00 for a zero
divisor. -/
def Obligations.RegisterDivide : Prop :=
  ∀ (r1 r2 : Nibble) (s : State) (q w : Reg), regOf r1 = some q → regOf r2 = some w →
    encode (.divr r1 r2) = [0x9C, r1 ++ r2] ∧
    (s.readReg q = 0 → exec (.divr r1 r2) s = .next (programCondition s 0x00#8 .divZero)) ∧
    (s.readReg q ≠ 0 → exec (.divr r1 r2) s = .next (s.writeReg w (BitVec.ofInt 24
      ((s.readReg w).toInt.sign * (s.readReg q).toInt.sign *
        ((s.readReg w).toInt.natAbs / (s.readReg q).toInt.natAbs : Nat)))))

/-- 44_register_ops.md R225, R230: COMPR sets CC to the signed order of the two registers; TIXR increments X and compares
the new X with the register as it reads after the increment. -/
def Obligations.CompareRegisters : Prop :=
  (∀ (r1 r2 : Nibble) (s : State) (q w : Reg), regOf r1 = some q → regOf r2 = some w →
    encode (.compr r1 r2) = [0xA0, r1 ++ r2] ∧
    exec (.compr r1 r2) s = .next { s with sw := { s.sw with
      cc := if (s.readReg q).toInt < (s.readReg w).toInt then 0b01
        else if (s.readReg q).toInt = (s.readReg w).toInt then 0b00 else 0b10 } }) ∧
  ∀ (r1 r2 : Nibble) (s : State) (q : Reg), regOf r1 = some q →
    let u := { s with regs := { s.regs with x := BitVec.ofNat 24 (s.regs.x.toNat + 1) } }
    encode (.tixr r1 r2) = [0xB8, r1 ++ r2] ∧
    exec (.tixr r1 r2) s = .next { u with sw := { u.sw with
      cc := if u.regs.x.toInt < (u.readReg q).toInt then 0b01
        else if u.regs.x.toInt = (u.readReg q).toInt then 0b00 else 0b10 } }

/-- 44_register_ops.md R226, R227: SHIFTL rotates left and SHIFTR shifts right with sign fill, by `r2 + 1`. -/
def Obligations.ShiftRegisters : Prop :=
  ∀ (r1 r2 : Nibble) (s : State) (q : Reg), regOf r1 = some q →
    let c := r2.toNat + 1
    let v := s.readReg q
    encode (.shiftl r1 r2) = [0xA4, r1 ++ r2] ∧ encode (.shiftr r1 r2) = [0xA8, r1 ++ r2] ∧
    exec (.shiftl r1 r2) s =
      .next (s.writeReg q (BitVec.ofNat 24 (v.toNat * 2 ^ c + v.toNat / 2 ^ (24 - c)))) ∧
    exec (.shiftr r1 r2) s = .next (s.writeReg q (BitVec.ofInt 24 (v.toInt / 2 ^ c)))

/-- 44_register_ops.md R228, R229: RMO copies register `r1` to `r2`; CLEAR writes zero, its second nibble ignored. -/
def Obligations.MoveAndClear : Prop :=
  (∀ (r1 r2 : Nibble) (s : State) (q w : Reg), regOf r1 = some q → regOf r2 = some w →
    encode (.rmo r1 r2) = [0xAC, r1 ++ r2] ∧ exec (.rmo r1 r2) s = .next (s.writeReg w (s.readReg q))) ∧
  ∀ (r1 r2 : Nibble) (s : State) (q : Reg), regOf r1 = some q →
    encode (.clear r1 r2) = [0xB4, r1 ++ r2] ∧ exec (.clear r1 r2) s = .next (s.writeReg q 0)

/-! ### Control transfer -/

/-- 45_control_transfer.md R240 to R243, R246: J, JEQ, JGT, JLT. -/
def Obligations.Jumps : Prop :=
  JumpRule .j 0x3C#8 (fun _ => True) ∧ JumpRule .jeq 0x30#8 (fun s => s.sw.cc = 0b00#2) ∧
  JumpRule .jgt 0x34#8 (fun s => s.sw.cc = 0b10#2) ∧ JumpRule .jlt 0x38#8 (fun s => s.sw.cc = 0b01#2)

/-- 45_control_transfer.md R244: JSUB saves PC in L and on the trace stack and jumps to the target resolved before. -/
def Obligations.JumpToSubroutine : Prop :=
  ∀ (m : MemOperand) (s : State),
    encode (.jsub m) = encodeOperand 0x48#8 m ∧
    (resolve m s = none → exec (.jsub m) s = .next (programCondition s 0x02#8 .invalidAddressing)) ∧
    ∀ r, resolve m s = some r →
      exec (.jsub m) s = .next { s with
        regs := { s.regs with l := BitVec.ofNat 24 s.pc.toNat }
        pc := addr20 r.ea
        trace := BitVec.ofNat 24 s.pc.toNat :: s.trace }

/-- 45_control_transfer.md R245: RSUB jumps to L reduced mod 2^20, L unchanged, and pops the trace stack or reports that
it was empty. -/
def Obligations.ReturnFromSubroutine : Prop :=
  ∀ (m : MemOperand) (s : State) (r : Resolved), resolve m s = some r →
    encode (.rsub m) = encodeOperand 0x4C#8 m ∧
    (∀ v rest, s.trace = v :: rest →
      exec (.rsub m) s = .next { s with pc := BitVec.ofNat 20 s.regs.l.toNat, trace := rest }) ∧
    (s.trace = [] →
      exec (.rsub m) s = .next { s with
        pc := BitVec.ofNat 20 s.regs.l.toNat, reports := .rsubEmptyTrace :: s.reports })

/-! ### Floating point and unimplemented instructions -/

/-- 46_float.md R256, R257, R258, R260: ADDF, SUBF, MULF, COMPF over the parameter `FP`. -/
def Obligations.FloatArithmetic : Prop :=
  OperandRule .addf 0x58#8 .float floatValue
    (fun v u => { u with regs := { u.regs with f := Config.fpAdd u.regs.f v } }) ∧
  OperandRule .subf 0x5C#8 .float floatValue
    (fun v u => { u with regs := { u.regs with f := Config.fpSub u.regs.f v } }) ∧
  OperandRule .mulf 0x60#8 .float floatValue
    (fun v u => { u with regs := { u.regs with f := Config.fpMul u.regs.f v } }) ∧
  OperandRule .compf 0x88#8 .float floatValue
    (fun v u => { u with sw := { u.sw with
      cc := match Config.fpCmp u.regs.f v with
        | .lt => 0b01
        | .eq => 0b00
        | .gt => 0b10 } })

/-- 46_float.md R259: DIVF, also for a zero divisor, with no report. -/
def Obligations.FloatDivide : Prop :=
  OperandRule .divf 0x64#8 .float floatValue
    (fun v u => { u with regs := { u.regs with f := Config.fpDiv u.regs.f v } })

/-- 46_float.md R261 to R263, 47_system_io.md R277 to R280: the seven recognised and unimplemented instructions report
and change nothing, FLOAT, FIX and NORM in either mode, the others in supervisor mode. -/
def Obligations.UnimplementedInstructions : Prop :=
  ∀ s : State,
    let t := { s with reports := .unimplemented :: s.reports }
    encode .float = [0xC0] ∧ encode .fix = [0xC4] ∧ encode .norm = [0xC8] ∧
    encode .sio = [0xF0] ∧ encode .hio = [0xF4] ∧ encode .tio = [0xF8] ∧
    exec .float s = .next t ∧ exec .fix s = .next t ∧ exec .norm s = .next t ∧
    (s.sw.mode = .supervisor →
      exec .sio s = .next t ∧ exec .hio s = .next t ∧ exec .tio s = .next t ∧
      ∀ (m : MemOperand) (r : Resolved), resolve m s = some r →
        encode (.ssk m) = encodeOperand 0xEC#8 m ∧ exec (.ssk m) s = .next t)

/-! ### Devices -/

/-- 47_system_io.md R270: RD. The byte read is whatever the device bus answers. -/
def Obligations.ReadDevice : Prop :=
  DeviceRule .rd 0xD8#8 (fun u => { u with reports := .deviceAbsent :: u.reports })
    (fun n u =>
      let ans := u.deviceAnswer (.read n)
      if ans.fails = true then { u with bus := busAfter u (.read n), reports := .deviceIoFail :: u.reports }
      else { u with
        bus := busAfter u (.read n), regs := { u.regs with a := replaceLowByte u.regs.a ans.byte } })

/-- 47_system_io.md R271: WD writes `A[7:0]`. -/
def Obligations.WriteDevice : Prop :=
  DeviceRule .wd 0xDC#8 (fun u => { u with reports := .deviceAbsent :: u.reports })
    (fun n u =>
      let op := Config.DevOp.write n (BitVec.ofNat 8 u.regs.a.toNat)
      if (u.deviceAnswer op).fails = true then
        { u with bus := busAfter u op, reports := .deviceIoFail :: u.reports }
      else { u with bus := busAfter u op })

/-- 47_system_io.md R272: TD sets CC to less for a ready device, to equal otherwise. -/
def Obligations.TestDevice : Prop :=
  DeviceRule .td 0xE0#8
    (fun u => { u with sw := { u.sw with cc := 0b00 }, reports := .deviceAbsent :: u.reports })
    (fun n u =>
      let ans := u.deviceAnswer (.test n)
      if ans.fails = true then
        { u with
          bus := busAfter u (.test n), sw := { u.sw with cc := 0b00 }, reports := .deviceIoFail :: u.reports }
      else { u with
        bus := busAfter u (.test n), sw := { u.sw with cc := if ans.ready = true then 0b01 else 0b00 } })

/-! ### Processor state, timer, interrupts -/

/-- 47_system_io.md R273, 10_state.md R43: LPS in supervisor mode loads SW, PC and all registers from the save slots of
the block at `ea` when no read of the block is aborted, and changes nothing when one is. The spans after it, a read span
of the six bytes at base+30 and no write span, are the model's choice (log entry 10): R43 does not say which of the nine
reads is the last datum read. -/
def Obligations.LoadProcessorState : Prop :=
  ∀ (m : MemOperand) (s : State) (r : Resolved), resolve m s = some r → s.sw.mode = .supervisor →
    let base := addr20 r.ea
    let reads : List (Addr × AccessWidth) :=
      [(base + 6, .word), (base + 9, .word), (base + 12, .word), (base + 15, .word), (base + 18, .word),
       (base + 21, .word), (base + 24, .word), (base + 27, .word), (base + 30, .float)]
    encode (.lps m) = encodeOperand 0xD0#8 m ∧
    ((∃ p ∈ reads, HookPoint.mk p.1 .read p.2 ∈ s.hook) → exec (.lps m) s = .next { s with aborted := true }) ∧
    ((∀ p ∈ reads, HookPoint.mk p.1 .read p.2 ∉ s.hook) →
      exec (.lps m) s = .next { s with
        sw := unpackSW (wordAt s.mem (base + 6))
        pc := BitVec.ofNat 20 (wordAt s.mem (base + 9)).toNat
        regs :=
          { a := wordAt s.mem (base + 12), x := wordAt s.mem (base + 15), l := wordAt s.mem (base + 18)
            b := wordAt s.mem (base + 21), s := wordAt s.mem (base + 24), t := wordAt s.mem (base + 27)
            f := floatAt s.mem (base + 30) }
        spans := { s.spans with read := some ⟨base + 30, 6⟩, write := none } })

/-- 47_system_io.md R274: STI in supervisor mode loads TIMER with the operand word. -/
def Obligations.LoadTimer : Prop :=
  ∀ (m : MemOperand) (s : State) (r : Resolved), resolve m s = some r → s.sw.mode = .supervisor →
    encode (.sti m) = encodeOperand 0xD4#8 m ∧
    (ReadAborts s r .word → exec (.sti m) s = .next { s with aborted := true }) ∧
    (ReadProceeds s r .word → exec (.sti m) s = .next { readNoted s r .word with timer := wordValue s r })

/-- 47_system_io.md R276: SVC queues its first nibble when MASK bit 3 is set, else reports; the second nibble is
ignored. -/
def Obligations.SupervisorCall : Prop :=
  ∀ (r1 r2 : Nibble) (s : State),
    encode (.svc r1 r2) = [0xB0, r1 ++ r2] ∧
    (s.sw.mask.getLsbD 3 = true →
      exec (.svc r1 r2) s = .next { s with pend := { s.pend with svc := some (BitVec.ofNat 8 r1.toNat) } }) ∧
    (s.sw.mask.getLsbD 3 = false →
      exec (.svc r1 r2) s = .next { s with reports := .svcDisabled :: s.reports })

/-- 60_exceptions.md R308 to R310: taking an interrupt saves SW, PC and all registers into the class's work area,
changes no other byte of memory, loads SW and PC from the first two words of the area, puts the code in ICODE, empties
the class's slot, and leaves everything else. -/
def Obligations.InterruptEntry : Prop :=
  ∀ (s : State) (c : IntClass) (code : Byte), Memory.wf s.mem = true →
    let base : Addr :=
      match c with
      | .svc => 0x100
      | .program => 0x130
      | .timer => 0x160
      | .io => 0x190
    let t := s.enterInterrupt c code
    wordAt t.mem (base + 6) = packSW s.sw ∧ wordAt t.mem (base + 9) = BitVec.ofNat 24 s.pc.toNat ∧
    wordAt t.mem (base + 12) = s.regs.a ∧ wordAt t.mem (base + 15) = s.regs.x ∧
    wordAt t.mem (base + 18) = s.regs.l ∧ wordAt t.mem (base + 21) = s.regs.b ∧
    wordAt t.mem (base + 24) = s.regs.s ∧ wordAt t.mem (base + 27) = s.regs.t ∧
    floatAt t.mem (base + 30) = s.regs.f ∧
    (∀ x : Addr, x.toNat < base.toNat + 6 ∨ base.toNat + 36 ≤ x.toNat →
      Memory.byte t.mem x = Memory.byte s.mem x) ∧
    t = { s with
      mem := t.mem
      sw := { unpackSW (wordAt s.mem base) with icode := code }
      pc := BitVec.ofNat 20 (wordAt s.mem (base + 3)).toNat
      pend :=
        match c with
        | .svc => { s.pend with svc := none }
        | .program => { s.pend with program := none }
        | .timer => { s.pend with timer := none }
        | .io => { s.pend with io := none } }

/-- 60_exceptions.md R311: the drain takes the pending interrupt of the highest class, SVC before PROGRAM before TIMER
before IO, whatever the MASK, at most one, and leaves the others pending. -/
def Obligations.DrainPriority : Prop :=
  ∀ (s : State) (code : Byte),
    (s.pend.svc = some code →
      s.drain = s.enterInterrupt .svc code ∧ s.drain.pend = { s.pend with svc := none }) ∧
    (s.pend.svc = none → s.pend.program = some code →
      s.drain = s.enterInterrupt .program code ∧ s.drain.pend = { s.pend with program := none }) ∧
    (s.pend.svc = none → s.pend.program = none → s.pend.timer = some code →
      s.drain = s.enterInterrupt .timer code ∧ s.drain.pend = { s.pend with timer := none }) ∧
    (s.pend.svc = none → s.pend.program = none → s.pend.timer = none → s.pend.io = some code →
      s.drain = s.enterInterrupt .io code ∧ s.drain.pend = { s.pend with io := none }) ∧
    (s.pend.svc = none → s.pend.program = none → s.pend.timer = none → s.pend.io = none → s.drain = s)

/-- 60_exceptions.md R314, 47_system_io.md R273: LPS with the base of a work area, run by the handler in supervisor mode
right after the interrupt was taken, restores SW, PC and every register of the interrupted program. -/
def Obligations.LpsUndoesInterruptEntry : Prop :=
  ∀ (s : State) (c : IntClass) (code : Byte) (m : MemOperand) (r : Resolved),
    Memory.wf s.mem = true → s.sw.cc ≠ 0b11#2 →
    (s.enterInterrupt c code).sw.mode = .supervisor →
    resolve m (s.enterInterrupt c code) = some r → addr20 r.ea = areaBase c →
    (∀ a w, HookPoint.mk a .read w ∉ s.hook) →
    ∃ v, exec (.lps m) (s.enterInterrupt c code) = .next v ∧
      v.regs = s.regs ∧ v.sw = s.sw ∧ v.pc = s.pc ∧ v.timer = s.timer ∧
      v.mem = (s.enterInterrupt c code).mem ∧ v.aborted = s.aborted
end

