-- ==== Sys2Proof/Laws/Memory.lean ====
section
/-! SUPPORT. The laws of the memory store: what a read after a write gives, that every operation keeps the canonical
form, and that canonical memories with equal bytes are equal. -/

namespace Sys2Proof.Machine

@[simp] theorem Memory.lookup_nil (a : Nat) : Memory.lookup [] a = none := rfl

theorem Memory.lookup_cons (k : Nat) (b : Byte) (m : Memory) (a : Nat) :
    Memory.lookup ((k, b) :: m) a = if a < k then none else if a = k then some b else Memory.lookup m a := rfl

theorem Memory.insert_cons (k : Nat) (b : Byte) (m : Memory) (a : Nat) (v : Byte) :
    Memory.insert ((k, b) :: m) a v =
      if a < k then (a, v) :: (k, b) :: m else if a = k then (a, v) :: m else (k, b) :: Memory.insert m a v := rfl

theorem Memory.wfFrom_cons (lo k : Nat) (b : Byte) (m : Memory) :
    Memory.wfFrom lo ((k, b) :: m) = true ↔ lo ≤ k ∧ k < 2 ^ 20 ∧ Memory.wfFrom (k + 1) m = true := by
  simp [Memory.wfFrom, and_assoc]

/-- Nothing is listed below the bound of a canonical memory. -/
theorem Memory.lookup_below {m : Memory} {lo a : Nat} (h : Memory.wfFrom lo m = true) (ha : a < lo) :
    Memory.lookup m a = none := by
  cases m with
  | nil => rfl
  | cons c m =>
    obtain ⟨k, b⟩ := c
    rw [Memory.wfFrom_cons] at h
    rw [Memory.lookup_cons, if_pos (by omega)]

/-- Read after write on keys. -/
theorem Memory.lookup_insert (m : Memory) (a : Nat) (v : Byte) (x : Nat) :
    Memory.lookup (Memory.insert m a v) x = if x = a then some v else Memory.lookup m x := by
  induction m with
  | nil =>
    rw [Memory.insert, Memory.lookup_cons, Memory.lookup_nil]
    split_ifs <;> first | rfl | omega
  | cons c m ih =>
    obtain ⟨k, b⟩ := c
    rw [Memory.insert_cons]
    split_ifs <;> simp only [Memory.lookup_cons, ih] <;> split_ifs <;> first | rfl | omega

/-- A write keeps the canonical form. -/
theorem Memory.wfFrom_insert {m : Memory} {lo a : Nat} (h : Memory.wfFrom lo m = true) (hl : lo ≤ a)
    (ha : a < 2 ^ 20) (v : Byte) : Memory.wfFrom lo (Memory.insert m a v) = true := by
  induction m generalizing lo with
  | nil => exact (Memory.wfFrom_cons ..).mpr ⟨hl, ha, rfl⟩
  | cons c m ih =>
    obtain ⟨k, b⟩ := c
    have hc := (Memory.wfFrom_cons lo k b m).mp h
    rw [Memory.insert_cons]
    split_ifs with h1 h2
    · simp only [Memory.wfFrom_cons]
      exact ⟨hl, ha, by omega, hc.2⟩
    · exact (Memory.wfFrom_cons ..).mpr ⟨hl, ha, h2 ▸ hc.2.2⟩
    · exact (Memory.wfFrom_cons ..).mpr ⟨hc.1, hc.2.1, ih hc.2.2 (by omega)⟩

/-- The bound on an address's key. -/
theorem addr_toNat_lt (a : Addr) : a.toNat < 2 ^ 20 := a.isLt

/-- A listed byte reads as it is listed. -/
theorem Memory.byte_of_lookup {m : Memory} {a : Addr} {v : Byte} (h : Memory.lookup m a.toNat = some v) :
    Memory.byte m a = v := by rw [Memory.byte, h]

/-- A byte nothing has written reads the free value of its address (10_state.md R45). -/
theorem Memory.byte_of_unlisted {m : Memory} {a : Addr} (h : Memory.lookup m a.toNat = none) :
    Memory.byte m a = Config.unwrittenByte a := by rw [Memory.byte, h]

/-- Read after write of one byte. -/
theorem Memory.byte_setByte (m : Memory) (a : Addr) (v : Byte) (x : Addr) :
    Memory.byte (Memory.setByte m a v) x = if x = a then v else Memory.byte m x := by
  rw [Memory.byte, Memory.setByte, Memory.lookup_insert]
  by_cases hx : x = a
  · simp [hx]
  · simp [hx, BitVec.toNat_inj, Memory.byte]

/-- `setByte` keeps the canonical form. -/
theorem Memory.wf_setByte {m : Memory} (h : Memory.wf m = true) (a : Addr) (v : Byte) :
    Memory.wf (Memory.setByte m a v) = true :=
  Memory.wfFrom_insert h (Nat.zero_le _) (addr_toNat_lt a) v

@[simp] theorem Memory.writeBytes_nil (m : Memory) (a : Addr) : Memory.writeBytes m a [] = m := rfl

@[simp] theorem Memory.writeBytes_cons (m : Memory) (a : Addr) (v : Byte) (bs : List Byte) :
    Memory.writeBytes m a (v :: bs) = Memory.writeBytes (Memory.setByte m a v) (a + 1#20) bs := rfl

/-- `writeBytes` keeps the canonical form. -/
theorem Memory.wf_writeBytes {m : Memory} (h : Memory.wf m = true) (a : Addr) (bs : List Byte) :
    Memory.wf (Memory.writeBytes m a bs) = true := by
  induction bs generalizing m a with
  | nil => exact h
  | cons v bs ih => exact ih (Memory.wf_setByte h a v) _

theorem Memory.wf_writeWord {m : Memory} (h : Memory.wf m = true) (a : Addr) (v : Word) :
    Memory.wf (Memory.writeWord m a v) = true := Memory.wf_writeBytes h a _

theorem Memory.wf_writeFloat {m : Memory} (h : Memory.wf m = true) (a : Addr) (v : Float48) :
    Memory.wf (Memory.writeFloat m a v) = true := Memory.wf_writeBytes h a _

/-- An address that is none of those stored to keeps its byte. -/
theorem Memory.byte_writeBytes_outside (m : Memory) (a x : Addr) (bs : List Byte)
    (hx : ∀ k : Nat, k < bs.length → x ≠ a + BitVec.ofNat 20 k) :
    Memory.byte (Memory.writeBytes m a bs) x = Memory.byte m x := by
  induction bs generalizing m a with
  | nil => rfl
  | cons v bs ih =>
    rw [Memory.writeBytes_cons, ih _ _ (fun k hk => ?_), Memory.byte_setByte, if_neg]
    · simpa using hx 0 (by simp)
    · have := hx (k + 1) (by simpa using hk)
      rwa [show a + 1#20 + BitVec.ofNat 20 k = a + BitVec.ofNat 20 (k + 1) by
        rw [Nat.add_comm k 1, BitVec.ofNat_add, BitVec.add_assoc]]

/-- The byte at offset `k` of a store shorter than the address space. -/
theorem Memory.byte_writeBytes_inside (m : Memory) (a : Addr) (bs : List Byte)
    (hlen : bs.length ≤ 2 ^ 20) (k : Nat) (hk : k < bs.length) :
    Memory.byte (Memory.writeBytes m a bs) (a + BitVec.ofNat 20 k) = bs[k] := by
  induction bs generalizing m a k with
  | nil => simp at hk
  | cons v bs ih =>
    rw [Memory.writeBytes_cons]
    cases k with
    | zero =>
      rw [Memory.byte_writeBytes_outside, Memory.byte_setByte]
      · simp
      · intro j hj heq
        simp only [List.length_cons] at hlen
        have h0 : (a + BitVec.ofNat 20 0).toNat = (a + 1#20 + BitVec.ofNat 20 j).toNat := by rw [← heq]
        simp only [BitVec.toNat_add, BitVec.toNat_ofNat] at h0
        have := a.isLt
        omega
    | succ k =>
      simp only [List.length_cons] at hk hlen
      rw [show a + BitVec.ofNat 20 (k + 1) = a + 1#20 + BitVec.ofNat 20 k by
        rw [Nat.add_comm k 1, BitVec.ofNat_add, BitVec.add_assoc]]
      rw [ih _ _ (by omega) k (by omega)]
      simp

/-- Canonical memories with equal lookups are equal. -/
theorem Memory.eq_of_lookup {m n : Memory} {lo : Nat} (hm : Memory.wfFrom lo m = true)
    (hn : Memory.wfFrom lo n = true) (h : ∀ a, Memory.lookup m a = Memory.lookup n a) : m = n := by
  induction m generalizing n lo with
  | nil =>
    cases n with
    | nil => rfl
    | cons d n =>
      obtain ⟨j, e⟩ := d
      simpa [Memory.lookup_cons] using h j
  | cons c m ih =>
    obtain ⟨k, b⟩ := c
    have hc := (Memory.wfFrom_cons lo k b m).mp hm
    cases n with
    | nil => simpa [Memory.lookup_cons] using h k
    | cons d n =>
      obtain ⟨j, e⟩ := d
      have hd := (Memory.wfFrom_cons lo j e n).mp hn
      have hkj : k = j := by
        have hk := h k
        have hj := h j
        simp only [Memory.lookup_cons, Nat.lt_irrefl, if_false, if_true] at hk hj
        by_contra hne
        rcases Nat.lt_or_gt_of_ne hne with hlt | hgt
        · simp [hlt] at hk
        · simp [hgt] at hj
      subst hkj
      have hbe : b = e := by simpa [Memory.lookup_cons] using h k
      subst hbe
      congr 1
      refine ih hc.2.2 hd.2.2 (fun a => ?_)
      by_cases ha : a < k + 1
      · rw [Memory.lookup_below hc.2.2 ha, Memory.lookup_below hd.2.2 ha]
      · have := h a
        simpa only [Memory.lookup_cons, if_neg (show ¬ a < k by omega), if_neg (show a ≠ k by omega)] using this

end Sys2Proof.Machine
end

