-- ==== Sys2Proof/Laws/State.lean ====
section
/-! SUPPORT. One lemma per field per update of State, each true by definition (the memory after an interrupt entry by
its defining equation), so that no proof unfolds a record update. -/

namespace Sys2Proof.Machine

/-! ### setA -/

@[simp] theorem State.setA_regs (s : State) (v : Word) : (s.setA v).regs = { s.regs with a := v } := rfl
@[simp] theorem State.setA_pc (s : State) (v : Word) : (s.setA v).pc = s.pc := rfl
@[simp] theorem State.setA_sw (s : State) (v : Word) : (s.setA v).sw = s.sw := rfl
@[simp] theorem State.setA_timer (s : State) (v : Word) : (s.setA v).timer = s.timer := rfl
@[simp] theorem State.setA_pend (s : State) (v : Word) : (s.setA v).pend = s.pend := rfl
@[simp] theorem State.setA_mem (s : State) (v : Word) : (s.setA v).mem = s.mem := rfl
@[simp] theorem State.setA_trace (s : State) (v : Word) : (s.setA v).trace = s.trace := rfl
@[simp] theorem State.setA_spans (s : State) (v : Word) : (s.setA v).spans = s.spans := rfl
@[simp] theorem State.setA_count (s : State) (v : Word) : (s.setA v).count = s.count := rfl
@[simp] theorem State.setA_reports (s : State) (v : Word) : (s.setA v).reports = s.reports := rfl
@[simp] theorem State.setA_bus (s : State) (v : Word) : (s.setA v).bus = s.bus := rfl
@[simp] theorem State.setA_hook (s : State) (v : Word) : (s.setA v).hook = s.hook := rfl
@[simp] theorem State.setA_ioIrq (s : State) (v : Word) : (s.setA v).ioIrq = s.ioIrq := rfl
@[simp] theorem State.setA_aborted (s : State) (v : Word) : (s.setA v).aborted = s.aborted := rfl

/-! ### setX -/

@[simp] theorem State.setX_regs (s : State) (v : Word) : (s.setX v).regs = { s.regs with x := v } := rfl
@[simp] theorem State.setX_pc (s : State) (v : Word) : (s.setX v).pc = s.pc := rfl
@[simp] theorem State.setX_sw (s : State) (v : Word) : (s.setX v).sw = s.sw := rfl
@[simp] theorem State.setX_timer (s : State) (v : Word) : (s.setX v).timer = s.timer := rfl
@[simp] theorem State.setX_pend (s : State) (v : Word) : (s.setX v).pend = s.pend := rfl
@[simp] theorem State.setX_mem (s : State) (v : Word) : (s.setX v).mem = s.mem := rfl
@[simp] theorem State.setX_trace (s : State) (v : Word) : (s.setX v).trace = s.trace := rfl
@[simp] theorem State.setX_spans (s : State) (v : Word) : (s.setX v).spans = s.spans := rfl
@[simp] theorem State.setX_count (s : State) (v : Word) : (s.setX v).count = s.count := rfl
@[simp] theorem State.setX_reports (s : State) (v : Word) : (s.setX v).reports = s.reports := rfl
@[simp] theorem State.setX_bus (s : State) (v : Word) : (s.setX v).bus = s.bus := rfl
@[simp] theorem State.setX_hook (s : State) (v : Word) : (s.setX v).hook = s.hook := rfl
@[simp] theorem State.setX_ioIrq (s : State) (v : Word) : (s.setX v).ioIrq = s.ioIrq := rfl
@[simp] theorem State.setX_aborted (s : State) (v : Word) : (s.setX v).aborted = s.aborted := rfl

/-! ### setL -/

@[simp] theorem State.setL_regs (s : State) (v : Word) : (s.setL v).regs = { s.regs with l := v } := rfl
@[simp] theorem State.setL_pc (s : State) (v : Word) : (s.setL v).pc = s.pc := rfl
@[simp] theorem State.setL_sw (s : State) (v : Word) : (s.setL v).sw = s.sw := rfl
@[simp] theorem State.setL_timer (s : State) (v : Word) : (s.setL v).timer = s.timer := rfl
@[simp] theorem State.setL_pend (s : State) (v : Word) : (s.setL v).pend = s.pend := rfl
@[simp] theorem State.setL_mem (s : State) (v : Word) : (s.setL v).mem = s.mem := rfl
@[simp] theorem State.setL_trace (s : State) (v : Word) : (s.setL v).trace = s.trace := rfl
@[simp] theorem State.setL_spans (s : State) (v : Word) : (s.setL v).spans = s.spans := rfl
@[simp] theorem State.setL_count (s : State) (v : Word) : (s.setL v).count = s.count := rfl
@[simp] theorem State.setL_reports (s : State) (v : Word) : (s.setL v).reports = s.reports := rfl
@[simp] theorem State.setL_bus (s : State) (v : Word) : (s.setL v).bus = s.bus := rfl
@[simp] theorem State.setL_hook (s : State) (v : Word) : (s.setL v).hook = s.hook := rfl
@[simp] theorem State.setL_ioIrq (s : State) (v : Word) : (s.setL v).ioIrq = s.ioIrq := rfl
@[simp] theorem State.setL_aborted (s : State) (v : Word) : (s.setL v).aborted = s.aborted := rfl

/-! ### setB -/

@[simp] theorem State.setB_regs (s : State) (v : Word) : (s.setB v).regs = { s.regs with b := v } := rfl
@[simp] theorem State.setB_pc (s : State) (v : Word) : (s.setB v).pc = s.pc := rfl
@[simp] theorem State.setB_sw (s : State) (v : Word) : (s.setB v).sw = s.sw := rfl
@[simp] theorem State.setB_timer (s : State) (v : Word) : (s.setB v).timer = s.timer := rfl
@[simp] theorem State.setB_pend (s : State) (v : Word) : (s.setB v).pend = s.pend := rfl
@[simp] theorem State.setB_mem (s : State) (v : Word) : (s.setB v).mem = s.mem := rfl
@[simp] theorem State.setB_trace (s : State) (v : Word) : (s.setB v).trace = s.trace := rfl
@[simp] theorem State.setB_spans (s : State) (v : Word) : (s.setB v).spans = s.spans := rfl
@[simp] theorem State.setB_count (s : State) (v : Word) : (s.setB v).count = s.count := rfl
@[simp] theorem State.setB_reports (s : State) (v : Word) : (s.setB v).reports = s.reports := rfl
@[simp] theorem State.setB_bus (s : State) (v : Word) : (s.setB v).bus = s.bus := rfl
@[simp] theorem State.setB_hook (s : State) (v : Word) : (s.setB v).hook = s.hook := rfl
@[simp] theorem State.setB_ioIrq (s : State) (v : Word) : (s.setB v).ioIrq = s.ioIrq := rfl
@[simp] theorem State.setB_aborted (s : State) (v : Word) : (s.setB v).aborted = s.aborted := rfl

/-! ### setS -/

@[simp] theorem State.setS_regs (s : State) (v : Word) : (s.setS v).regs = { s.regs with s := v } := rfl
@[simp] theorem State.setS_pc (s : State) (v : Word) : (s.setS v).pc = s.pc := rfl
@[simp] theorem State.setS_sw (s : State) (v : Word) : (s.setS v).sw = s.sw := rfl
@[simp] theorem State.setS_timer (s : State) (v : Word) : (s.setS v).timer = s.timer := rfl
@[simp] theorem State.setS_pend (s : State) (v : Word) : (s.setS v).pend = s.pend := rfl
@[simp] theorem State.setS_mem (s : State) (v : Word) : (s.setS v).mem = s.mem := rfl
@[simp] theorem State.setS_trace (s : State) (v : Word) : (s.setS v).trace = s.trace := rfl
@[simp] theorem State.setS_spans (s : State) (v : Word) : (s.setS v).spans = s.spans := rfl
@[simp] theorem State.setS_count (s : State) (v : Word) : (s.setS v).count = s.count := rfl
@[simp] theorem State.setS_reports (s : State) (v : Word) : (s.setS v).reports = s.reports := rfl
@[simp] theorem State.setS_bus (s : State) (v : Word) : (s.setS v).bus = s.bus := rfl
@[simp] theorem State.setS_hook (s : State) (v : Word) : (s.setS v).hook = s.hook := rfl
@[simp] theorem State.setS_ioIrq (s : State) (v : Word) : (s.setS v).ioIrq = s.ioIrq := rfl
@[simp] theorem State.setS_aborted (s : State) (v : Word) : (s.setS v).aborted = s.aborted := rfl

/-! ### setT -/

@[simp] theorem State.setT_regs (s : State) (v : Word) : (s.setT v).regs = { s.regs with t := v } := rfl
@[simp] theorem State.setT_pc (s : State) (v : Word) : (s.setT v).pc = s.pc := rfl
@[simp] theorem State.setT_sw (s : State) (v : Word) : (s.setT v).sw = s.sw := rfl
@[simp] theorem State.setT_timer (s : State) (v : Word) : (s.setT v).timer = s.timer := rfl
@[simp] theorem State.setT_pend (s : State) (v : Word) : (s.setT v).pend = s.pend := rfl
@[simp] theorem State.setT_mem (s : State) (v : Word) : (s.setT v).mem = s.mem := rfl
@[simp] theorem State.setT_trace (s : State) (v : Word) : (s.setT v).trace = s.trace := rfl
@[simp] theorem State.setT_spans (s : State) (v : Word) : (s.setT v).spans = s.spans := rfl
@[simp] theorem State.setT_count (s : State) (v : Word) : (s.setT v).count = s.count := rfl
@[simp] theorem State.setT_reports (s : State) (v : Word) : (s.setT v).reports = s.reports := rfl
@[simp] theorem State.setT_bus (s : State) (v : Word) : (s.setT v).bus = s.bus := rfl
@[simp] theorem State.setT_hook (s : State) (v : Word) : (s.setT v).hook = s.hook := rfl
@[simp] theorem State.setT_ioIrq (s : State) (v : Word) : (s.setT v).ioIrq = s.ioIrq := rfl
@[simp] theorem State.setT_aborted (s : State) (v : Word) : (s.setT v).aborted = s.aborted := rfl

/-! ### setF -/

@[simp] theorem State.setF_regs (s : State) (v : Float48) : (s.setF v).regs = { s.regs with f := v } := rfl
@[simp] theorem State.setF_pc (s : State) (v : Float48) : (s.setF v).pc = s.pc := rfl
@[simp] theorem State.setF_sw (s : State) (v : Float48) : (s.setF v).sw = s.sw := rfl
@[simp] theorem State.setF_timer (s : State) (v : Float48) : (s.setF v).timer = s.timer := rfl
@[simp] theorem State.setF_pend (s : State) (v : Float48) : (s.setF v).pend = s.pend := rfl
@[simp] theorem State.setF_mem (s : State) (v : Float48) : (s.setF v).mem = s.mem := rfl
@[simp] theorem State.setF_trace (s : State) (v : Float48) : (s.setF v).trace = s.trace := rfl
@[simp] theorem State.setF_spans (s : State) (v : Float48) : (s.setF v).spans = s.spans := rfl
@[simp] theorem State.setF_count (s : State) (v : Float48) : (s.setF v).count = s.count := rfl
@[simp] theorem State.setF_reports (s : State) (v : Float48) : (s.setF v).reports = s.reports := rfl
@[simp] theorem State.setF_bus (s : State) (v : Float48) : (s.setF v).bus = s.bus := rfl
@[simp] theorem State.setF_hook (s : State) (v : Float48) : (s.setF v).hook = s.hook := rfl
@[simp] theorem State.setF_ioIrq (s : State) (v : Float48) : (s.setF v).ioIrq = s.ioIrq := rfl
@[simp] theorem State.setF_aborted (s : State) (v : Float48) : (s.setF v).aborted = s.aborted := rfl

/-! ### setPc -/

@[simp] theorem State.setPc_regs (s : State) (v : Addr) : (s.setPc v).regs = s.regs := rfl
@[simp] theorem State.setPc_pc (s : State) (v : Addr) : (s.setPc v).pc = v := rfl
@[simp] theorem State.setPc_sw (s : State) (v : Addr) : (s.setPc v).sw = s.sw := rfl
@[simp] theorem State.setPc_timer (s : State) (v : Addr) : (s.setPc v).timer = s.timer := rfl
@[simp] theorem State.setPc_pend (s : State) (v : Addr) : (s.setPc v).pend = s.pend := rfl
@[simp] theorem State.setPc_mem (s : State) (v : Addr) : (s.setPc v).mem = s.mem := rfl
@[simp] theorem State.setPc_trace (s : State) (v : Addr) : (s.setPc v).trace = s.trace := rfl
@[simp] theorem State.setPc_spans (s : State) (v : Addr) : (s.setPc v).spans = s.spans := rfl
@[simp] theorem State.setPc_count (s : State) (v : Addr) : (s.setPc v).count = s.count := rfl
@[simp] theorem State.setPc_reports (s : State) (v : Addr) : (s.setPc v).reports = s.reports := rfl
@[simp] theorem State.setPc_bus (s : State) (v : Addr) : (s.setPc v).bus = s.bus := rfl
@[simp] theorem State.setPc_hook (s : State) (v : Addr) : (s.setPc v).hook = s.hook := rfl
@[simp] theorem State.setPc_ioIrq (s : State) (v : Addr) : (s.setPc v).ioIrq = s.ioIrq := rfl
@[simp] theorem State.setPc_aborted (s : State) (v : Addr) : (s.setPc v).aborted = s.aborted := rfl

/-! ### setSW -/

@[simp] theorem State.setSW_regs (s : State) (v : StatusWord) : (s.setSW v).regs = s.regs := rfl
@[simp] theorem State.setSW_pc (s : State) (v : StatusWord) : (s.setSW v).pc = s.pc := rfl
@[simp] theorem State.setSW_sw (s : State) (v : StatusWord) : (s.setSW v).sw = v := rfl
@[simp] theorem State.setSW_timer (s : State) (v : StatusWord) : (s.setSW v).timer = s.timer := rfl
@[simp] theorem State.setSW_pend (s : State) (v : StatusWord) : (s.setSW v).pend = s.pend := rfl
@[simp] theorem State.setSW_mem (s : State) (v : StatusWord) : (s.setSW v).mem = s.mem := rfl
@[simp] theorem State.setSW_trace (s : State) (v : StatusWord) : (s.setSW v).trace = s.trace := rfl
@[simp] theorem State.setSW_spans (s : State) (v : StatusWord) : (s.setSW v).spans = s.spans := rfl
@[simp] theorem State.setSW_count (s : State) (v : StatusWord) : (s.setSW v).count = s.count := rfl
@[simp] theorem State.setSW_reports (s : State) (v : StatusWord) : (s.setSW v).reports = s.reports := rfl
@[simp] theorem State.setSW_bus (s : State) (v : StatusWord) : (s.setSW v).bus = s.bus := rfl
@[simp] theorem State.setSW_hook (s : State) (v : StatusWord) : (s.setSW v).hook = s.hook := rfl
@[simp] theorem State.setSW_ioIrq (s : State) (v : StatusWord) : (s.setSW v).ioIrq = s.ioIrq := rfl
@[simp] theorem State.setSW_aborted (s : State) (v : StatusWord) : (s.setSW v).aborted = s.aborted := rfl

/-! ### setTimer -/

@[simp] theorem State.setTimer_regs (s : State) (v : Word) : (s.setTimer v).regs = s.regs := rfl
@[simp] theorem State.setTimer_pc (s : State) (v : Word) : (s.setTimer v).pc = s.pc := rfl
@[simp] theorem State.setTimer_sw (s : State) (v : Word) : (s.setTimer v).sw = s.sw := rfl
@[simp] theorem State.setTimer_timer (s : State) (v : Word) : (s.setTimer v).timer = v := rfl
@[simp] theorem State.setTimer_pend (s : State) (v : Word) : (s.setTimer v).pend = s.pend := rfl
@[simp] theorem State.setTimer_mem (s : State) (v : Word) : (s.setTimer v).mem = s.mem := rfl
@[simp] theorem State.setTimer_trace (s : State) (v : Word) : (s.setTimer v).trace = s.trace := rfl
@[simp] theorem State.setTimer_spans (s : State) (v : Word) : (s.setTimer v).spans = s.spans := rfl
@[simp] theorem State.setTimer_count (s : State) (v : Word) : (s.setTimer v).count = s.count := rfl
@[simp] theorem State.setTimer_reports (s : State) (v : Word) : (s.setTimer v).reports = s.reports := rfl
@[simp] theorem State.setTimer_bus (s : State) (v : Word) : (s.setTimer v).bus = s.bus := rfl
@[simp] theorem State.setTimer_hook (s : State) (v : Word) : (s.setTimer v).hook = s.hook := rfl
@[simp] theorem State.setTimer_ioIrq (s : State) (v : Word) : (s.setTimer v).ioIrq = s.ioIrq := rfl
@[simp] theorem State.setTimer_aborted (s : State) (v : Word) : (s.setTimer v).aborted = s.aborted := rfl

/-! ### setMem -/

@[simp] theorem State.setMem_regs (s : State) (m : Memory) : (s.setMem m).regs = s.regs := rfl
@[simp] theorem State.setMem_pc (s : State) (m : Memory) : (s.setMem m).pc = s.pc := rfl
@[simp] theorem State.setMem_sw (s : State) (m : Memory) : (s.setMem m).sw = s.sw := rfl
@[simp] theorem State.setMem_timer (s : State) (m : Memory) : (s.setMem m).timer = s.timer := rfl
@[simp] theorem State.setMem_pend (s : State) (m : Memory) : (s.setMem m).pend = s.pend := rfl
@[simp] theorem State.setMem_mem (s : State) (m : Memory) : (s.setMem m).mem = m := rfl
@[simp] theorem State.setMem_trace (s : State) (m : Memory) : (s.setMem m).trace = s.trace := rfl
@[simp] theorem State.setMem_spans (s : State) (m : Memory) : (s.setMem m).spans = s.spans := rfl
@[simp] theorem State.setMem_count (s : State) (m : Memory) : (s.setMem m).count = s.count := rfl
@[simp] theorem State.setMem_reports (s : State) (m : Memory) : (s.setMem m).reports = s.reports := rfl
@[simp] theorem State.setMem_bus (s : State) (m : Memory) : (s.setMem m).bus = s.bus := rfl
@[simp] theorem State.setMem_hook (s : State) (m : Memory) : (s.setMem m).hook = s.hook := rfl
@[simp] theorem State.setMem_ioIrq (s : State) (m : Memory) : (s.setMem m).ioIrq = s.ioIrq := rfl
@[simp] theorem State.setMem_aborted (s : State) (m : Memory) : (s.setMem m).aborted = s.aborted := rfl

/-! ### setCC -/

@[simp] theorem State.setCC_regs (s : State) (z : Int) : (s.setCC z).regs = s.regs := rfl
@[simp] theorem State.setCC_pc (s : State) (z : Int) : (s.setCC z).pc = s.pc := rfl
@[simp] theorem State.setCC_sw (s : State) (z : Int) : (s.setCC z).sw = { s.sw with cc := ccOf z } := rfl
@[simp] theorem State.setCC_timer (s : State) (z : Int) : (s.setCC z).timer = s.timer := rfl
@[simp] theorem State.setCC_pend (s : State) (z : Int) : (s.setCC z).pend = s.pend := rfl
@[simp] theorem State.setCC_mem (s : State) (z : Int) : (s.setCC z).mem = s.mem := rfl
@[simp] theorem State.setCC_trace (s : State) (z : Int) : (s.setCC z).trace = s.trace := rfl
@[simp] theorem State.setCC_spans (s : State) (z : Int) : (s.setCC z).spans = s.spans := rfl
@[simp] theorem State.setCC_count (s : State) (z : Int) : (s.setCC z).count = s.count := rfl
@[simp] theorem State.setCC_reports (s : State) (z : Int) : (s.setCC z).reports = s.reports := rfl
@[simp] theorem State.setCC_bus (s : State) (z : Int) : (s.setCC z).bus = s.bus := rfl
@[simp] theorem State.setCC_hook (s : State) (z : Int) : (s.setCC z).hook = s.hook := rfl
@[simp] theorem State.setCC_ioIrq (s : State) (z : Int) : (s.setCC z).ioIrq = s.ioIrq := rfl
@[simp] theorem State.setCC_aborted (s : State) (z : Int) : (s.setCC z).aborted = s.aborted := rfl

/-! ### report -/

@[simp] theorem State.report_regs (s : State) (k : Report) : (s.report k).regs = s.regs := rfl
@[simp] theorem State.report_pc (s : State) (k : Report) : (s.report k).pc = s.pc := rfl
@[simp] theorem State.report_sw (s : State) (k : Report) : (s.report k).sw = s.sw := rfl
@[simp] theorem State.report_timer (s : State) (k : Report) : (s.report k).timer = s.timer := rfl
@[simp] theorem State.report_pend (s : State) (k : Report) : (s.report k).pend = s.pend := rfl
@[simp] theorem State.report_mem (s : State) (k : Report) : (s.report k).mem = s.mem := rfl
@[simp] theorem State.report_trace (s : State) (k : Report) : (s.report k).trace = s.trace := rfl
@[simp] theorem State.report_spans (s : State) (k : Report) : (s.report k).spans = s.spans := rfl
@[simp] theorem State.report_count (s : State) (k : Report) : (s.report k).count = s.count := rfl
@[simp] theorem State.report_reports (s : State) (k : Report) : (s.report k).reports = k :: s.reports := rfl
@[simp] theorem State.report_bus (s : State) (k : Report) : (s.report k).bus = s.bus := rfl
@[simp] theorem State.report_hook (s : State) (k : Report) : (s.report k).hook = s.hook := rfl
@[simp] theorem State.report_ioIrq (s : State) (k : Report) : (s.report k).ioIrq = s.ioIrq := rfl
@[simp] theorem State.report_aborted (s : State) (k : Report) : (s.report k).aborted = s.aborted := rfl

/-! ### queue -/

@[simp] theorem State.queue_regs (s : State) (c : IntClass) (n : Byte) : (s.queue c n).regs = s.regs := rfl
@[simp] theorem State.queue_pc (s : State) (c : IntClass) (n : Byte) : (s.queue c n).pc = s.pc := rfl
@[simp] theorem State.queue_sw (s : State) (c : IntClass) (n : Byte) : (s.queue c n).sw = s.sw := rfl
@[simp] theorem State.queue_timer (s : State) (c : IntClass) (n : Byte) : (s.queue c n).timer = s.timer := rfl
@[simp] theorem State.queue_pend (s : State) (c : IntClass) (n : Byte) : (s.queue c n).pend = s.pend.set c (some n) := rfl
@[simp] theorem State.queue_mem (s : State) (c : IntClass) (n : Byte) : (s.queue c n).mem = s.mem := rfl
@[simp] theorem State.queue_trace (s : State) (c : IntClass) (n : Byte) : (s.queue c n).trace = s.trace := rfl
@[simp] theorem State.queue_spans (s : State) (c : IntClass) (n : Byte) : (s.queue c n).spans = s.spans := rfl
@[simp] theorem State.queue_count (s : State) (c : IntClass) (n : Byte) : (s.queue c n).count = s.count := rfl
@[simp] theorem State.queue_reports (s : State) (c : IntClass) (n : Byte) : (s.queue c n).reports = s.reports := rfl
@[simp] theorem State.queue_bus (s : State) (c : IntClass) (n : Byte) : (s.queue c n).bus = s.bus := rfl
@[simp] theorem State.queue_hook (s : State) (c : IntClass) (n : Byte) : (s.queue c n).hook = s.hook := rfl
@[simp] theorem State.queue_ioIrq (s : State) (c : IntClass) (n : Byte) : (s.queue c n).ioIrq = s.ioIrq := rfl
@[simp] theorem State.queue_aborted (s : State) (c : IntClass) (n : Byte) : (s.queue c n).aborted = s.aborted := rfl

/-! ### abortCycle -/

@[simp] theorem State.abortCycle_regs (s : State) : (s.abortCycle).regs = s.regs := rfl
@[simp] theorem State.abortCycle_pc (s : State) : (s.abortCycle).pc = s.pc := rfl
@[simp] theorem State.abortCycle_sw (s : State) : (s.abortCycle).sw = s.sw := rfl
@[simp] theorem State.abortCycle_timer (s : State) : (s.abortCycle).timer = s.timer := rfl
@[simp] theorem State.abortCycle_pend (s : State) : (s.abortCycle).pend = s.pend := rfl
@[simp] theorem State.abortCycle_mem (s : State) : (s.abortCycle).mem = s.mem := rfl
@[simp] theorem State.abortCycle_trace (s : State) : (s.abortCycle).trace = s.trace := rfl
@[simp] theorem State.abortCycle_spans (s : State) : (s.abortCycle).spans = s.spans := rfl
@[simp] theorem State.abortCycle_count (s : State) : (s.abortCycle).count = s.count := rfl
@[simp] theorem State.abortCycle_reports (s : State) : (s.abortCycle).reports = s.reports := rfl
@[simp] theorem State.abortCycle_bus (s : State) : (s.abortCycle).bus = s.bus := rfl
@[simp] theorem State.abortCycle_hook (s : State) : (s.abortCycle).hook = s.hook := rfl
@[simp] theorem State.abortCycle_ioIrq (s : State) : (s.abortCycle).ioIrq = s.ioIrq := rfl
@[simp] theorem State.abortCycle_aborted (s : State) : (s.abortCycle).aborted = true := rfl

/-! ### noteRead -/

@[simp] theorem State.noteRead_regs (s : State) (a : Addr) (w : AccessWidth) : (s.noteRead a w).regs = s.regs := rfl
@[simp] theorem State.noteRead_pc (s : State) (a : Addr) (w : AccessWidth) : (s.noteRead a w).pc = s.pc := rfl
@[simp] theorem State.noteRead_sw (s : State) (a : Addr) (w : AccessWidth) : (s.noteRead a w).sw = s.sw := rfl
@[simp] theorem State.noteRead_timer (s : State) (a : Addr) (w : AccessWidth) : (s.noteRead a w).timer = s.timer := rfl
@[simp] theorem State.noteRead_pend (s : State) (a : Addr) (w : AccessWidth) : (s.noteRead a w).pend = s.pend := rfl
@[simp] theorem State.noteRead_mem (s : State) (a : Addr) (w : AccessWidth) : (s.noteRead a w).mem = s.mem := rfl
@[simp] theorem State.noteRead_trace (s : State) (a : Addr) (w : AccessWidth) : (s.noteRead a w).trace = s.trace := rfl
@[simp] theorem State.noteRead_spans (s : State) (a : Addr) (w : AccessWidth) : (s.noteRead a w).spans = { s.spans with read := some ⟨a, w.bytes⟩, write := none } := rfl
@[simp] theorem State.noteRead_count (s : State) (a : Addr) (w : AccessWidth) : (s.noteRead a w).count = s.count := rfl
@[simp] theorem State.noteRead_reports (s : State) (a : Addr) (w : AccessWidth) : (s.noteRead a w).reports = s.reports := rfl
@[simp] theorem State.noteRead_bus (s : State) (a : Addr) (w : AccessWidth) : (s.noteRead a w).bus = s.bus := rfl
@[simp] theorem State.noteRead_hook (s : State) (a : Addr) (w : AccessWidth) : (s.noteRead a w).hook = s.hook := rfl
@[simp] theorem State.noteRead_ioIrq (s : State) (a : Addr) (w : AccessWidth) : (s.noteRead a w).ioIrq = s.ioIrq := rfl
@[simp] theorem State.noteRead_aborted (s : State) (a : Addr) (w : AccessWidth) : (s.noteRead a w).aborted = s.aborted := rfl

/-! ### noteWrite -/

@[simp] theorem State.noteWrite_regs (s : State) (a : Addr) (w : AccessWidth) : (s.noteWrite a w).regs = s.regs := rfl
@[simp] theorem State.noteWrite_pc (s : State) (a : Addr) (w : AccessWidth) : (s.noteWrite a w).pc = s.pc := rfl
@[simp] theorem State.noteWrite_sw (s : State) (a : Addr) (w : AccessWidth) : (s.noteWrite a w).sw = s.sw := rfl
@[simp] theorem State.noteWrite_timer (s : State) (a : Addr) (w : AccessWidth) : (s.noteWrite a w).timer = s.timer := rfl
@[simp] theorem State.noteWrite_pend (s : State) (a : Addr) (w : AccessWidth) : (s.noteWrite a w).pend = s.pend := rfl
@[simp] theorem State.noteWrite_mem (s : State) (a : Addr) (w : AccessWidth) : (s.noteWrite a w).mem = s.mem := rfl
@[simp] theorem State.noteWrite_trace (s : State) (a : Addr) (w : AccessWidth) : (s.noteWrite a w).trace = s.trace := rfl
@[simp] theorem State.noteWrite_spans (s : State) (a : Addr) (w : AccessWidth) : (s.noteWrite a w).spans = { s.spans with read := none, write := some ⟨a, w.bytes⟩ } := rfl
@[simp] theorem State.noteWrite_count (s : State) (a : Addr) (w : AccessWidth) : (s.noteWrite a w).count = s.count := rfl
@[simp] theorem State.noteWrite_reports (s : State) (a : Addr) (w : AccessWidth) : (s.noteWrite a w).reports = s.reports := rfl
@[simp] theorem State.noteWrite_bus (s : State) (a : Addr) (w : AccessWidth) : (s.noteWrite a w).bus = s.bus := rfl
@[simp] theorem State.noteWrite_hook (s : State) (a : Addr) (w : AccessWidth) : (s.noteWrite a w).hook = s.hook := rfl
@[simp] theorem State.noteWrite_ioIrq (s : State) (a : Addr) (w : AccessWidth) : (s.noteWrite a w).ioIrq = s.ioIrq := rfl
@[simp] theorem State.noteWrite_aborted (s : State) (a : Addr) (w : AccessWidth) : (s.noteWrite a w).aborted = s.aborted := rfl

/-! ### deviceDone -/

@[simp] theorem State.deviceDone_regs (s : State) (op : Config.DevOp) : (s.deviceDone op).regs = s.regs := rfl
@[simp] theorem State.deviceDone_pc (s : State) (op : Config.DevOp) : (s.deviceDone op).pc = s.pc := rfl
@[simp] theorem State.deviceDone_sw (s : State) (op : Config.DevOp) : (s.deviceDone op).sw = s.sw := rfl
@[simp] theorem State.deviceDone_timer (s : State) (op : Config.DevOp) : (s.deviceDone op).timer = s.timer := rfl
@[simp] theorem State.deviceDone_pend (s : State) (op : Config.DevOp) : (s.deviceDone op).pend = s.pend := rfl
@[simp] theorem State.deviceDone_mem (s : State) (op : Config.DevOp) : (s.deviceDone op).mem = s.mem := rfl
@[simp] theorem State.deviceDone_trace (s : State) (op : Config.DevOp) : (s.deviceDone op).trace = s.trace := rfl
@[simp] theorem State.deviceDone_spans (s : State) (op : Config.DevOp) : (s.deviceDone op).spans = s.spans := rfl
@[simp] theorem State.deviceDone_count (s : State) (op : Config.DevOp) : (s.deviceDone op).count = s.count := rfl
@[simp] theorem State.deviceDone_reports (s : State) (op : Config.DevOp) : (s.deviceDone op).reports = s.reports := rfl
@[simp] theorem State.deviceDone_bus (s : State) (op : Config.DevOp) : (s.deviceDone op).bus = { s.bus with answers := s.bus.answers.tail, log := op :: s.bus.log } := rfl
@[simp] theorem State.deviceDone_hook (s : State) (op : Config.DevOp) : (s.deviceDone op).hook = s.hook := rfl
@[simp] theorem State.deviceDone_ioIrq (s : State) (op : Config.DevOp) : (s.deviceDone op).ioIrq = s.ioIrq := rfl
@[simp] theorem State.deviceDone_aborted (s : State) (op : Config.DevOp) : (s.deviceDone op).aborted = s.aborted := rfl

/-! ### pushTrace -/

@[simp] theorem State.pushTrace_regs (s : State) (v : Word) : (s.pushTrace v).regs = s.regs := rfl
@[simp] theorem State.pushTrace_pc (s : State) (v : Word) : (s.pushTrace v).pc = s.pc := rfl
@[simp] theorem State.pushTrace_sw (s : State) (v : Word) : (s.pushTrace v).sw = s.sw := rfl
@[simp] theorem State.pushTrace_timer (s : State) (v : Word) : (s.pushTrace v).timer = s.timer := rfl
@[simp] theorem State.pushTrace_pend (s : State) (v : Word) : (s.pushTrace v).pend = s.pend := rfl
@[simp] theorem State.pushTrace_mem (s : State) (v : Word) : (s.pushTrace v).mem = s.mem := rfl
@[simp] theorem State.pushTrace_trace (s : State) (v : Word) : (s.pushTrace v).trace = v :: s.trace := rfl
@[simp] theorem State.pushTrace_spans (s : State) (v : Word) : (s.pushTrace v).spans = s.spans := rfl
@[simp] theorem State.pushTrace_count (s : State) (v : Word) : (s.pushTrace v).count = s.count := rfl
@[simp] theorem State.pushTrace_reports (s : State) (v : Word) : (s.pushTrace v).reports = s.reports := rfl
@[simp] theorem State.pushTrace_bus (s : State) (v : Word) : (s.pushTrace v).bus = s.bus := rfl
@[simp] theorem State.pushTrace_hook (s : State) (v : Word) : (s.pushTrace v).hook = s.hook := rfl
@[simp] theorem State.pushTrace_ioIrq (s : State) (v : Word) : (s.pushTrace v).ioIrq = s.ioIrq := rfl
@[simp] theorem State.pushTrace_aborted (s : State) (v : Word) : (s.pushTrace v).aborted = s.aborted := rfl

/-! ### countCycle -/

@[simp] theorem State.countCycle_regs (s : State) : (s.countCycle).regs = s.regs := rfl
@[simp] theorem State.countCycle_pc (s : State) : (s.countCycle).pc = s.pc := rfl
@[simp] theorem State.countCycle_sw (s : State) : (s.countCycle).sw = s.sw := rfl
@[simp] theorem State.countCycle_timer (s : State) : (s.countCycle).timer = s.timer := rfl
@[simp] theorem State.countCycle_pend (s : State) : (s.countCycle).pend = s.pend := rfl
@[simp] theorem State.countCycle_mem (s : State) : (s.countCycle).mem = s.mem := rfl
@[simp] theorem State.countCycle_trace (s : State) : (s.countCycle).trace = s.trace := rfl
@[simp] theorem State.countCycle_spans (s : State) : (s.countCycle).spans = s.spans := rfl
@[simp] theorem State.countCycle_count (s : State) : (s.countCycle).count = s.count + 1 := rfl
@[simp] theorem State.countCycle_reports (s : State) : (s.countCycle).reports = s.reports := rfl
@[simp] theorem State.countCycle_bus (s : State) : (s.countCycle).bus = s.bus := rfl
@[simp] theorem State.countCycle_hook (s : State) : (s.countCycle).hook = s.hook := rfl
@[simp] theorem State.countCycle_ioIrq (s : State) : (s.countCycle).ioIrq = s.ioIrq := rfl
@[simp] theorem State.countCycle_aborted (s : State) : (s.countCycle).aborted = s.aborted := rfl

/-! ### enterInterrupt -/

@[simp] theorem State.enterInterrupt_regs (s : State) (c : IntClass) (code : Byte) :
    (s.enterInterrupt c code).regs = s.regs := rfl
@[simp] theorem State.enterInterrupt_pc (s : State) (c : IntClass) (code : Byte) :
    (s.enterInterrupt c code).pc = addr20 (Memory.readWord (s.saveContext (areaBase c)) (areaBase c + 3#20)) := rfl
@[simp] theorem State.enterInterrupt_sw (s : State) (c : IntClass) (code : Byte) :
    (s.enterInterrupt c code).sw = { unpackSW (Memory.readWord (s.saveContext (areaBase c)) (areaBase c)) with icode := code } := rfl
@[simp] theorem State.enterInterrupt_timer (s : State) (c : IntClass) (code : Byte) :
    (s.enterInterrupt c code).timer = s.timer := rfl
@[simp] theorem State.enterInterrupt_pend (s : State) (c : IntClass) (code : Byte) :
    (s.enterInterrupt c code).pend = s.pend.set c none := rfl
@[simp] theorem State.enterInterrupt_mem (s : State) (c : IntClass) (code : Byte) :
    (s.enterInterrupt c code).mem = s.saveContext (areaBase c) := by rw [State.enterInterrupt]
@[simp] theorem State.enterInterrupt_trace (s : State) (c : IntClass) (code : Byte) :
    (s.enterInterrupt c code).trace = s.trace := rfl
@[simp] theorem State.enterInterrupt_spans (s : State) (c : IntClass) (code : Byte) :
    (s.enterInterrupt c code).spans = s.spans := rfl
@[simp] theorem State.enterInterrupt_count (s : State) (c : IntClass) (code : Byte) :
    (s.enterInterrupt c code).count = s.count := rfl
@[simp] theorem State.enterInterrupt_reports (s : State) (c : IntClass) (code : Byte) :
    (s.enterInterrupt c code).reports = s.reports := rfl
@[simp] theorem State.enterInterrupt_bus (s : State) (c : IntClass) (code : Byte) :
    (s.enterInterrupt c code).bus = s.bus := rfl
@[simp] theorem State.enterInterrupt_hook (s : State) (c : IntClass) (code : Byte) :
    (s.enterInterrupt c code).hook = s.hook := rfl
@[simp] theorem State.enterInterrupt_ioIrq (s : State) (c : IntClass) (code : Byte) :
    (s.enterInterrupt c code).ioIrq = s.ioIrq := rfl
@[simp] theorem State.enterInterrupt_aborted (s : State) (c : IntClass) (code : Byte) :
    (s.enterInterrupt c code).aborted = s.aborted := rfl

/-! ### loadContext -/

@[simp] theorem State.loadContext_pc (s : State) (base : Addr) :
    (s.loadContext base).pc = addr20 (Memory.readWord s.mem (base + 9#20)) := rfl
@[simp] theorem State.loadContext_sw (s : State) (base : Addr) :
    (s.loadContext base).sw = unpackSW (Memory.readWord s.mem (base + 6#20)) := rfl
@[simp] theorem State.loadContext_timer (s : State) (base : Addr) :
    (s.loadContext base).timer = s.timer := rfl
@[simp] theorem State.loadContext_pend (s : State) (base : Addr) :
    (s.loadContext base).pend = s.pend := rfl
@[simp] theorem State.loadContext_mem (s : State) (base : Addr) :
    (s.loadContext base).mem = s.mem := rfl
@[simp] theorem State.loadContext_trace (s : State) (base : Addr) :
    (s.loadContext base).trace = s.trace := rfl
@[simp] theorem State.loadContext_spans (s : State) (base : Addr) :
    (s.loadContext base).spans = s.spans := rfl
@[simp] theorem State.loadContext_count (s : State) (base : Addr) :
    (s.loadContext base).count = s.count := rfl
@[simp] theorem State.loadContext_reports (s : State) (base : Addr) :
    (s.loadContext base).reports = s.reports := rfl
@[simp] theorem State.loadContext_bus (s : State) (base : Addr) :
    (s.loadContext base).bus = s.bus := rfl
@[simp] theorem State.loadContext_hook (s : State) (base : Addr) :
    (s.loadContext base).hook = s.hook := rfl
@[simp] theorem State.loadContext_ioIrq (s : State) (base : Addr) :
    (s.loadContext base).ioIrq = s.ioIrq := rfl
@[simp] theorem State.loadContext_aborted (s : State) (base : Addr) :
    (s.loadContext base).aborted = s.aborted := rfl

end Sys2Proof.Machine
end

