-- ==== Sys2Proof/Laws/Ops.lean ====
section
/-! SUPPORT. For each shared operation one lemma that says everything it can do, in elimination form: a property of
every outcome the operation has is a property of its result. -/

namespace Sys2Proof.Machine

/-! ### Program conditions, privilege, registers -/

/-- The MASK bit of each class (10_state.md R35). -/
theorem State.enabled_iff (s : State) (c : IntClass) :
    s.enabled c = s.sw.mask.getLsbD (match c with | .svc => 3 | .program => 2 | .timer => 1 | .io => 0) := by
  rw [State.enabled]
  generalize s.sw.mask = k
  cases c <;> (revert k; decide)

theorem State.enabled_svc (s : State) : s.enabled .svc = s.sw.mask.getLsbD 3 := s.enabled_iff .svc
theorem State.enabled_program (s : State) : s.enabled .program = s.sw.mask.getLsbD 2 := s.enabled_iff .program
theorem State.enabled_timer (s : State) : s.enabled .timer = s.sw.mask.getLsbD 1 := s.enabled_iff .timer
theorem State.enabled_io (s : State) : s.enabled .io = s.sw.mask.getLsbD 0 := s.enabled_iff .io

/-- A program condition is queued or reported (60_exceptions.md R303). -/
theorem State.raiseProgram_elim {P : State → Prop} {s : State} {code : Byte} {kind : Report}
    (hq : s.enabled .program = true → P (s.queue .program code))
    (hr : s.enabled .program = false → P (s.report kind)) : P (s.raiseProgram code kind) := by
  unfold State.raiseProgram
  split
  · exact hq ‹_›
  · rename_i h
    exact hr (by simpa using h)

/-- A privileged effect runs in supervisor mode only (60_exceptions.md R318). -/
theorem State.supervisorOnly_elim {P : State → Prop} {s : State} {k : State → State}
    (hu : s.sw.mode = .user → P (s.raiseProgram codePrivilegedInstruction .privileged))
    (hs : s.sw.mode = .supervisor → P (k s)) : P (s.supervisorOnly k) := by
  unfold State.supervisorOnly
  split
  · exact hu ‹_›
  · refine hs ?_
    cases h : s.sw.mode
    · exact absurd h ‹_›
    · rfl

/-- A selector names a register or raises the bad-register condition (44_register_ops.md R220). -/
theorem State.withReg_elim {P : State → Prop} {s : State} {i : Nibble} {k : Reg → State}
    (hn : regOf i = none → P (s.raiseProgram codeIllegalInstruction .badRegister))
    (hs : ∀ r, regOf i = some r → P (k r)) : P (s.withReg i k) := by
  unfold State.withReg
  split
  · exact hn ‹_›
  · exact hs _ ‹_›

/-- Both register fields name registers or one condition is raised (44_register_ops.md R220). -/
theorem State.withRegs_elim {P : State → Prop} {s : State} {r1 r2 : Nibble} {k : Reg → Reg → State}
    (hn : regOf r1 = none ∨ regOf r2 = none → P (s.raiseProgram codeIllegalInstruction .badRegister))
    (hs : ∀ q w, regOf r1 = some q → regOf r2 = some w → P (k q w)) : P (s.withRegs r1 r2 k) :=
  State.withReg_elim (fun h => hn (.inl h)) fun q hq =>
    State.withReg_elim (fun h => hn (.inr h)) fun w hw => hs q w hq hw

/-- A selector fails exactly at 7 and 10 to 15 (10_state.md R27). -/
theorem regOf_eq_none_iff (i : Nibble) : regOf i = none ↔ i.toNat = 7 ∨ 10 ≤ i.toNat := by
  revert i; decide

/-- The selector of the status word (10_state.md R27). -/
theorem regOf_eq_sw_iff (i : Nibble) : regOf i = some .sw ↔ i = 9#4 := by
  revert i; decide

/-- The selector of PC (10_state.md R27). -/
theorem regOf_eq_pc_iff (i : Nibble) : regOf i = some .pc ↔ i = 8#4 := by
  revert i; decide

/-- The selector of X (10_state.md R27). -/
theorem regOf_eq_x_iff (i : Nibble) : regOf i = some .x ↔ i = 1#4 := by
  revert i; decide

/-- A write by selector changes the general registers, PC or SW, and nothing else (10_state.md R29). -/
theorem State.writeReg_elim {P : State → Prop} {s : State} {r : Reg} {v : Word}
    (hr : ∀ g : Regs, (r ≠ .x → g.x = s.regs.x) → r ≠ .pc → r ≠ .sw → P { s with regs := g })
    (hp : r = .pc → P (s.setPc (addr20 v))) (hw : r = .sw → P (s.setSW (unpackSW v))) : P (s.writeReg r v) := by
  cases r with
  | pc => exact hp rfl
  | sw => exact hw rfl
  | x => exact hr { s.regs with x := v } (fun h => absurd rfl h) (by decide) (by decide)
  | a => exact hr { s.regs with a := v } (fun _ => rfl) (by decide) (by decide)
  | l => exact hr { s.regs with l := v } (fun _ => rfl) (by decide) (by decide)
  | b => exact hr { s.regs with b := v } (fun _ => rfl) (by decide) (by decide)
  | s => exact hr { s.regs with s := v } (fun _ => rfl) (by decide) (by decide)
  | t => exact hr { s.regs with t := v } (fun _ => rfl) (by decide) (by decide)
  | f => exact hr { s.regs with f := Config.fpFromInt (s24 v) } (fun _ => rfl) (by decide) (by decide)

/-! ### Hooked accesses and operands -/

/-- A hooked read aborts or goes on with the read noted (20_memory.md R69). -/
theorem State.hookedRead_elim {P : State → Prop} {s : State} {a : Addr} {w : AccessWidth} {k : State → State}
    (ha : s.hookAborts a .read w = true → P s.abortCycle)
    (hk : s.hookAborts a .read w = false → P (k (s.noteRead a w))) : P (s.hookedRead a w k) := by
  unfold State.hookedRead
  split
  · exact ha ‹_›
  · rename_i h
    exact hk (by simpa using h)

/-- A hooked write aborts or stores (20_memory.md R70). -/
theorem State.hookedWrite_elim {P : State → Prop} {s : State} {a : Addr} {w : AccessWidth} {m : Memory}
    (ha : s.hookAborts a .write w = true → P s.abortCycle)
    (hk : s.hookAborts a .write w = false → P ((s.noteWrite a w).setMem m)) : P (s.hookedWrite a w m) := by
  unfold State.hookedWrite
  split
  · exact ha ‹_›
  · rename_i h
    exact hk (by simpa using h)

/-- The operand resolves or the invalid-addressing condition is raised (41_address_resolver.md R155). -/
theorem State.withOperand_elim {P : State → Prop} {s : State} {m : MemOperand} {k : Resolved → State}
    (hn : resolve m s = none → P (s.raiseProgram codeAddrOutOfRange .invalidAddressing))
    (hs : ∀ r, resolve m s = some r → P (k r)) : P (s.withOperand m k) := by
  unfold State.withOperand
  split
  · exact hn ‹_›
  · exact hs _ ‹_›

/-- The word operand is `ta`, or the word at `ea`, or the read aborts (41_address_resolver.md R157). -/
theorem State.wordOperand_elim {P : State → Prop} {s : State} {r : Resolved} {k : Word → State → State}
    (hi : r.mode = .immediate → P (k r.ta s))
    (ha : r.mode ≠ .immediate → s.hookAborts (addr20 r.ea) .read .word = true → P s.abortCycle)
    (hr : r.mode ≠ .immediate → s.hookAborts (addr20 r.ea) .read .word = false →
      P (k (Memory.readWord s.mem (addr20 r.ea)) (s.noteRead (addr20 r.ea) .word))) : P (s.wordOperand r k) := by
  unfold State.wordOperand
  split
  · exact hi ‹_›
  · exact State.hookedRead_elim (ha ‹_›) (hr ‹_›)

/-- The byte operand (41_address_resolver.md R157). -/
theorem State.byteOperand_elim {P : State → Prop} {s : State} {r : Resolved} {k : Byte → State → State}
    (hi : r.mode = .immediate → P (k (lowByte r.ta) s))
    (ha : r.mode ≠ .immediate → s.hookAborts (addr20 r.ea) .read .byte = true → P s.abortCycle)
    (hr : r.mode ≠ .immediate → s.hookAborts (addr20 r.ea) .read .byte = false →
      P (k (Memory.byte s.mem (addr20 r.ea)) (s.noteRead (addr20 r.ea) .byte))) : P (s.byteOperand r k) := by
  unfold State.byteOperand
  split
  · exact hi ‹_›
  · exact State.hookedRead_elim (ha ‹_›) (hr ‹_›)

/-- The float operand (41_address_resolver.md R157). -/
theorem State.floatOperand_elim {P : State → Prop} {s : State} {r : Resolved} {k : Float48 → State → State}
    (hi : r.mode = .immediate → P (k (Config.fpFromInt (s24 r.ta)) s))
    (ha : r.mode ≠ .immediate → s.hookAborts (addr20 r.ea) .read .float = true → P s.abortCycle)
    (hr : r.mode ≠ .immediate → s.hookAborts (addr20 r.ea) .read .float = false →
      P (k (Memory.readFloat s.mem (addr20 r.ea)) (s.noteRead (addr20 r.ea) .float))) : P (s.floatOperand r k) := by
  unfold State.floatOperand
  split
  · exact hi ‹_›
  · exact State.hookedRead_elim (ha ‹_›) (hr ‹_›)

/-- A jump moves PC or leaves the state (45_control_transfer.md R246). -/
theorem State.jumpIf_elim {P : State → Prop} {s : State} {m : MemOperand} {taken : Bool}
    (hn : resolve m s = none → P (s.raiseProgram codeAddrOutOfRange .invalidAddressing))
    (ht : ∀ r, resolve m s = some r → taken = true → P (s.setPc (addr20 r.ea)))
    (hf : taken = false → P s) : P (s.jumpIf m taken) := by
  refine State.withOperand_elim hn fun r hr => ?_
  cases taken with
  | true => exact ht r hr rfl
  | false => exact hf rfl

/-- LPS aborts or restores all at once (47_system_io.md R273). -/
theorem State.restoreContext_elim {P : State → Prop} {s : State} {base : Addr} (ha : P s.abortCycle)
    (hk : P ((s.loadContext base).noteRead (base + 30#20) .float)) : P (s.restoreContext base) := by
  unfold State.restoreContext
  split
  · exact ha
  · exact hk

/-! ### End of the cycle -/

/-- The drain enters one interrupt or does nothing (60_exceptions.md R311). -/
theorem State.drain_elim {P : State → Prop} {s : State}
    (he : ∀ c code, s.pend.highest = some (c, code) → P (s.enterInterrupt c code))
    (hn : s.pend.highest = none → P s) : P s.drain := by
  unfold State.drain
  split
  · exact he _ _ ‹_›
  · exact hn ‹_›

/-- Timer-Tick changes TIMER and at most the TIMER slot (40_cycle.md R127). -/
theorem State.tick_elim {P : State → Prop} {s : State}
    (hq : s24 (timerTick s.timer) ≤ 0 → s.enabled .timer = true →
      P ((s.setTimer (timerTick s.timer)).queue .timer 0x00#8))
    (hn : ¬ (s24 (timerTick s.timer) ≤ 0 ∧ s.enabled .timer = true) → P (s.setTimer (timerTick s.timer))) :
    P s.tick := by
  unfold State.tick
  split
  · exact hq (‹_ ∧ _›).1 (‹_ ∧ _›).2
  · exact hn ‹_›

/-- The IO sample changes the request list and at most the IO slot (60_exceptions.md R307). -/
theorem State.sampleIo_elim {P : State → Prop} {s : State} (h0 : s.ioIrq = [] → P s)
    (h1 : ∀ o rest, s.ioIrq = o :: rest → P { s with ioIrq := rest })
    (h2 : ∀ code rest, s.ioIrq = some code :: rest → s.enabled .io = true →
      P { s with ioIrq := rest, pend := s.pend.set .io (some code) }) : P s.sampleIo := by
  unfold State.sampleIo
  split
  · exact h0 ‹_›
  · exact h1 _ _ ‹_›
  · split
    · exact h2 _ _ ‹_› ‹_›
    · exact h1 _ _ ‹_›

/-- The canonical form through the save of a context (60_exceptions.md R310). -/
theorem State.wf_saveContext {s : State} (h : Memory.wf s.mem = true) (base : Addr) :
    Memory.wf (s.saveContext base) = true := by
  unfold State.saveContext
  refine Memory.wf_writeFloat ?_ _ _
  iterate 8 refine Memory.wf_writeWord ?_ _ _
  exact h

/-- CC is never `0b11` in an unpacked word (10_state.md R33). -/
theorem unpackSW_cc_ne (v : Word) : (unpackSW v).cc ≠ 0b11#2 := by
  unfold unpackSW
  dsimp only
  split
  · decide
  · assumption

/-- CC is never `0b11` after a comparison (10_state.md R34). -/
theorem ccOf_ne (z : Int) : ccOf z ≠ 0b11#2 := by
  unfold ccOf
  split
  · decide
  · split <;> decide

/-! ### Fetch -/

theorem State.incPc_elim {P : State → Prop} {s : State}
    (hw : s.pc = 0xFFFFF#20 → P ((s.setPc 0x00000#20).report .pcOverflow))
    (hn : s.pc ≠ 0xFFFFF#20 → P (s.setPc (s.pc + 1#20))) : P s.incPc := by
  unfold State.incPc
  split
  · exact hw ‹_›
  · exact hn ‹_›

/-- `advancePc` changes only PC and the reports (40_cycle.md R121). -/
theorem State.advancePc_frame (s : State) (n : Nat) :
    ∃ a r, s.advancePc n = { s with pc := a, reports := r } := by
  induction n generalizing s with
  | zero => exact ⟨s.pc, s.reports, rfl⟩
  | succ n ih =>
    obtain ⟨a, r, h⟩ := ih s.incPc
    refine ⟨a, r, ?_⟩
    rw [State.advancePc, h]
    exact State.incPc_elim (P := fun t => { t with pc := a, reports := r } = { s with pc := a, reports := r })
      (fun _ => rfl) (fun _ => rfl)

end Sys2Proof.Machine
end

