-- ==== Sys2Proof/Laws/Context.lean ====
section
/-! SUPPORT. What the save of a context leaves in memory (60_exceptions.md R310): each slot of the work area reads as
the register saved in it, every other byte is as before. The nine writes are one write of 30 adjacent bytes. -/

namespace Sys2Proof.Machine

/-- Two adjacent writes are one. -/
theorem Memory.writeBytes_append (m : Memory) (a : Addr) (xs ys : List Byte) :
    Memory.writeBytes m a (xs ++ ys) = Memory.writeBytes (Memory.writeBytes m a xs) (a + BitVec.ofNat 20 xs.length) ys := by
  induction xs generalizing m a with
  | nil => rw [List.nil_append, List.length_nil, BitVec.add_zero]; rfl
  | cons x xs ih =>
    rw [List.cons_append, Memory.writeBytes, ih, Memory.writeBytes, BitVec.add_assoc, List.length_cons]
    congr 2
    apply BitVec.eq_of_toNat_eq
    simp [Nat.add_comm]

/-- Writing a word and then the bytes after it is one write. -/
theorem Memory.writeBytes_writeWord (m : Memory) (a b : Addr) (v : Word) (bs : List Byte) (h : b = a + 3#20) :
    Memory.writeBytes (Memory.writeWord m a v) b bs = Memory.writeBytes m a (wordBytes v ++ bs) := by
  rw [Memory.writeBytes_append, h]
  rfl

/-- Joining three bytes undoes taking them apart. -/
theorem join_wordBytes (v : Word) : v.extractLsb' 16 8 ++ v.extractLsb' 8 8 ++ v.extractLsb' 0 8 = v := by
  rw [BitVec.extractLsb'_append_extractLsb'_eq_extractLsb' (by decide),
    BitVec.extractLsb'_append_extractLsb'_eq_extractLsb' (by decide)]
  exact BitVec.extractLsb'_eq_self

/-- Joining six bytes undoes taking them apart. -/
theorem join_floatBytes (v : Float48) :
    v.extractLsb' 40 8 ++ v.extractLsb' 32 8 ++ v.extractLsb' 24 8 ++ v.extractLsb' 16 8 ++ v.extractLsb' 8 8 ++
      v.extractLsb' 0 8 = v := by
  iterate 5 rw [BitVec.extractLsb'_append_extractLsb'_eq_extractLsb' (by decide)]
  exact BitVec.extractLsb'_eq_self

theorem addr_add_ofNat_succ (a : Addr) (k j : Nat) : a + BitVec.ofNat 20 k + BitVec.ofNat 20 j = a + BitVec.ofNat 20 (k + j) := by
  rw [BitVec.add_assoc]
  congr 1
  apply BitVec.eq_of_toNat_eq
  simp

/-- A word read out of the bytes just written. -/
theorem Memory.readWord_writeBytes (m : Memory) (a : Addr) (bs : List Byte)
    (hlen : bs.length ≤ 2 ^ 20) (k : Nat) (v : Word) (hk : k + 2 < bs.length)
    (hv : [bs[k], bs[k + 1], bs[k + 2]] = wordBytes v) :
    Memory.readWord (Memory.writeBytes m a bs) (a + BitVec.ofNat 20 k) = v := by
  simp only [wordBytes, List.cons.injEq, and_true] at hv
  obtain ⟨h0, h1, h2⟩ := hv
  have e1 := addr_add_ofNat_succ a k 1
  have e2 := addr_add_ofNat_succ a k 2
  rw [Memory.readWord, e1, e2, Memory.byte_writeBytes_inside m a bs hlen, Memory.byte_writeBytes_inside m a bs hlen,
    Memory.byte_writeBytes_inside m a bs hlen, h0, h1, h2, join_wordBytes] <;> omega

/-- A float read out of the bytes just written. -/
theorem Memory.readFloat_writeBytes (m : Memory) (a : Addr) (bs : List Byte)
    (hlen : bs.length ≤ 2 ^ 20) (k : Nat) (v : Float48) (hk : k + 5 < bs.length)
    (hv : [bs[k], bs[k + 1], bs[k + 2], bs[k + 3], bs[k + 4], bs[k + 5]] = floatBytes v) :
    Memory.readFloat (Memory.writeBytes m a bs) (a + BitVec.ofNat 20 k) = v := by
  simp only [floatBytes, List.cons.injEq, and_true] at hv
  obtain ⟨h0, h1, h2, h3, h4, h5⟩ := hv
  have e1 := addr_add_ofNat_succ a k 1
  have e2 := addr_add_ofNat_succ a k 2
  have e3 := addr_add_ofNat_succ a k 3
  have e4 := addr_add_ofNat_succ a k 4
  have e5 := addr_add_ofNat_succ a k 5
  rw [Memory.readFloat, e1, e2, e3, e4, e5, Memory.byte_writeBytes_inside m a bs hlen,
    Memory.byte_writeBytes_inside m a bs hlen, Memory.byte_writeBytes_inside m a bs hlen,
    Memory.byte_writeBytes_inside m a bs hlen, Memory.byte_writeBytes_inside m a bs hlen,
    Memory.byte_writeBytes_inside m a bs hlen, h0, h1, h2, h3, h4, h5, join_floatBytes] <;> omega

/-- The 30 bytes of a saved context, in the order of the slots (60_exceptions.md R309). -/
def State.contextBytes (s : State) : List Byte :=
  wordBytes (packSW s.sw) ++ (wordBytes (addrWord s.pc) ++ (wordBytes s.regs.a ++ (wordBytes s.regs.x ++
    (wordBytes s.regs.l ++ (wordBytes s.regs.b ++ (wordBytes s.regs.s ++ (wordBytes s.regs.t ++
      floatBytes s.regs.f)))))))

/-- The save of a context is one write of its 30 bytes at the first slot. -/
theorem State.saveContext_eq (s : State) (base : Addr) :
    s.saveContext base = Memory.writeBytes s.mem (base + 6#20) s.contextBytes := by
  have step : ∀ i j : Addr, j = i + 3#20 → base + j = base + i + 3#20 := fun i j h => by
    rw [h, BitVec.add_assoc]
  rw [State.saveContext, Memory.writeFloat,
    Memory.writeBytes_writeWord _ _ _ _ _ (step 27#20 30#20 rfl),
    Memory.writeBytes_writeWord _ _ _ _ _ (step 24#20 27#20 rfl),
    Memory.writeBytes_writeWord _ _ _ _ _ (step 21#20 24#20 rfl),
    Memory.writeBytes_writeWord _ _ _ _ _ (step 18#20 21#20 rfl),
    Memory.writeBytes_writeWord _ _ _ _ _ (step 15#20 18#20 rfl),
    Memory.writeBytes_writeWord _ _ _ _ _ (step 12#20 15#20 rfl),
    Memory.writeBytes_writeWord _ _ _ _ _ (step 9#20 12#20 rfl),
    Memory.writeBytes_writeWord _ _ _ _ _ (step 6#20 9#20 rfl),
    State.contextBytes]

theorem State.length_contextBytes (s : State) : s.contextBytes.length = 30 := rfl

/-- A word slot `j = 6 + k` of the saved context. -/
theorem State.readWord_saveContext (s : State) (base j : Addr) (k : Nat) (v : Word)
    (hj : j = 6#20 + BitVec.ofNat 20 k) (hk : k + 2 < 30)
    (hv : [s.contextBytes[k]'(by rw [length_contextBytes]; omega),
      s.contextBytes[k + 1]'(by rw [length_contextBytes]; omega),
      s.contextBytes[k + 2]'(by rw [length_contextBytes]; omega)] = wordBytes v) :
    Memory.readWord (s.saveContext base) (base + j) = v := by
  rw [State.saveContext_eq, hj, ← BitVec.add_assoc]
  exact Memory.readWord_writeBytes _ _ _ (by rw [length_contextBytes]; decide) k v
    (by rw [length_contextBytes]; omega) hv

/-- Every slot of the saved context reads as the register saved in it (60_exceptions.md R309, R310). -/
theorem State.saveContext_slots (s : State) (base : Addr) :
    Memory.readWord (s.saveContext base) (base + 6#20) = packSW s.sw ∧
    Memory.readWord (s.saveContext base) (base + 9#20) = addrWord s.pc ∧
    Memory.readWord (s.saveContext base) (base + 12#20) = s.regs.a ∧
    Memory.readWord (s.saveContext base) (base + 15#20) = s.regs.x ∧
    Memory.readWord (s.saveContext base) (base + 18#20) = s.regs.l ∧
    Memory.readWord (s.saveContext base) (base + 21#20) = s.regs.b ∧
    Memory.readWord (s.saveContext base) (base + 24#20) = s.regs.s ∧
    Memory.readWord (s.saveContext base) (base + 27#20) = s.regs.t ∧
    Memory.readFloat (s.saveContext base) (base + 30#20) = s.regs.f := by
  refine ⟨State.readWord_saveContext s _ _ 0 _ rfl (by decide) rfl,
    State.readWord_saveContext s _ _ 3 _ rfl (by decide) rfl,
    State.readWord_saveContext s _ _ 6 _ rfl (by decide) rfl,
    State.readWord_saveContext s _ _ 9 _ rfl (by decide) rfl,
    State.readWord_saveContext s _ _ 12 _ rfl (by decide) rfl,
    State.readWord_saveContext s _ _ 15 _ rfl (by decide) rfl,
    State.readWord_saveContext s _ _ 18 _ rfl (by decide) rfl,
    State.readWord_saveContext s _ _ 21 _ rfl (by decide) rfl, ?_⟩
  have e : base + 30#20 = base + 6#20 + BitVec.ofNat 20 24 := (BitVec.add_assoc base 6#20 24#20).symm
  rw [State.saveContext_eq, e]
  exact Memory.readFloat_writeBytes _ _ _ (by rw [length_contextBytes]; decide) 24 _
    (by rw [length_contextBytes]; decide) rfl

/-- A byte outside the save slots is not touched. -/
theorem State.byte_saveContext_outside (s : State) (base x : Addr)
    (hx : ∀ k : Nat, k < 30 → x ≠ base + 6#20 + BitVec.ofNat 20 k) :
    Memory.byte (s.saveContext base) x = Memory.byte s.mem x := by
  rw [State.saveContext_eq]
  exact Memory.byte_writeBytes_outside _ _ x _ hx

end Sys2Proof.Machine
end

