-- ==== Sys2Proof/Laws/Frame.lean ====
section
/-! SUPPORT. Properties that survive the machinery around an effect: a queued condition, a report, an abort, a noted
read. Such a property of the state before an instruction is one of its result as soon as the effect itself keeps it, so
that a frame or an invariant is shown of the effect alone. -/

namespace Sys2Proof.Machine

/-- A property kept by a queued interrupt, a report, an abort and a noted read. -/
structure Robust (P : State → Prop) : Prop where
  queue : ∀ s c n, P s → P (s.queue c n)
  report : ∀ s k, P s → P (s.report k)
  abort : ∀ s, P s → P s.abortCycle
  noteRead : ∀ s a w, P s → P (s.noteRead a w)

variable {P : State → Prop} {s : State}

/-- A field that none of the four touches is robustly constant. -/
theorem Robust.of_field {α : Type} (g : State → α) (a : α) (hq : ∀ s c n, g (s.queue c n) = g s)
    (hr : ∀ s k, g (s.report k) = g s) (ha : ∀ s, g s.abortCycle = g s)
    (hn : ∀ s x w, g (s.noteRead x w) = g s) : Robust (fun t => g t = a) where
  queue s c n h := (hq s c n).trans h
  report s k h := (hr s k).trans h
  abort s h := (ha s).trans h
  noteRead s x w h := (hn s x w).trans h

theorem Robust.raiseProgram (h : Robust P) (hs : P s) (code : Byte) (kind : Report) : P (s.raiseProgram code kind) :=
  State.raiseProgram_elim (fun _ => h.queue s _ _ hs) (fun _ => h.report s _ hs)

theorem Robust.supervisorOnly (h : Robust P) (hs : P s) {k : State → State}
    (hk : s.sw.mode = .supervisor → P (k s)) : P (s.supervisorOnly k) :=
  State.supervisorOnly_elim (fun _ => h.raiseProgram hs _ _) hk

theorem Robust.withReg (h : Robust P) (hs : P s) {i : Nibble} {k : Reg → State}
    (hk : ∀ r, regOf i = some r → P (k r)) : P (s.withReg i k) :=
  State.withReg_elim (fun _ => h.raiseProgram hs _ _) hk

theorem Robust.withRegs (h : Robust P) (hs : P s) {r1 r2 : Nibble} {k : Reg → Reg → State}
    (hk : ∀ q w, regOf r1 = some q → regOf r2 = some w → P (k q w)) : P (s.withRegs r1 r2 k) :=
  State.withRegs_elim (fun _ => h.raiseProgram hs _ _) hk

theorem Robust.withOperand (h : Robust P) (hs : P s) {m : MemOperand} {k : Resolved → State}
    (hk : ∀ r, resolve m s = some r → P (k r)) : P (s.withOperand m k) :=
  State.withOperand_elim (fun _ => h.raiseProgram hs _ _) hk

theorem Robust.wordOperand (h : Robust P) (hs : P s) {r : Resolved} {k : Word → State → State}
    (hk : ∀ v u, P u → P (k v u)) : P (s.wordOperand r k) :=
  State.wordOperand_elim (fun _ => hk _ _ hs) (fun _ _ => h.abort s hs) (fun _ _ => hk _ _ (h.noteRead s _ _ hs))

theorem Robust.byteOperand (h : Robust P) (hs : P s) {r : Resolved} {k : Byte → State → State}
    (hk : ∀ v u, P u → P (k v u)) : P (s.byteOperand r k) :=
  State.byteOperand_elim (fun _ => hk _ _ hs) (fun _ _ => h.abort s hs) (fun _ _ => hk _ _ (h.noteRead s _ _ hs))

theorem Robust.floatOperand (h : Robust P) (hs : P s) {r : Resolved} {k : Float48 → State → State}
    (hk : ∀ v u, P u → P (k v u)) : P (s.floatOperand r k) :=
  State.floatOperand_elim (fun _ => hk _ _ hs) (fun _ _ => h.abort s hs) (fun _ _ => hk _ _ (h.noteRead s _ _ hs))

theorem Robust.withWord (h : Robust P) (hs : P s) {m : MemOperand} {k : Word → State → State}
    (hk : ∀ v u, P u → P (k v u)) : P (s.withWord m k) :=
  h.withOperand hs fun _ _ => h.wordOperand hs hk

theorem Robust.withFloat (h : Robust P) (hs : P s) {m : MemOperand} {k : Float48 → State → State}
    (hk : ∀ v u, P u → P (k v u)) : P (s.withFloat m k) :=
  h.withOperand hs fun _ _ => h.floatOperand hs hk

theorem Robust.withDevice (h : Robust P) (hs : P s) {m : MemOperand} {k : Byte → State → State}
    (hk : s.sw.mode = .supervisor → ∀ v u, P u → P (k v u)) : P (s.withDevice m k) :=
  h.withOperand hs fun _ _ => h.supervisorOnly hs fun hm => h.byteOperand hs (hk hm)

theorem Robust.hookedWrite (h : Robust P) (hs : P s) {a : Addr} {w : AccessWidth} {m : Memory}
    (hk : P ((s.noteWrite a w).setMem m)) : P (s.hookedWrite a w m) :=
  State.hookedWrite_elim (fun _ => h.abort s hs) (fun _ => hk)

/-- A store of any width: the outcome with the memory written is the one to look at. -/
theorem Robust.store (h : Robust P) (hs : P s) (m : MemOperand) (w : AccessWidth) (bytes : List Byte)
    (hk : ∀ a, P ((s.noteWrite a w).setMem (Memory.writeBytes s.mem a bytes))) :
    P (s.withOperand m fun r => s.hookedWrite (addr20 r.ea) w (Memory.writeBytes s.mem (addr20 r.ea) bytes)) :=
  h.withOperand hs fun _ _ => h.hookedWrite hs (hk _)

theorem Robust.jumpIf (h : Robust P) (hs : P s) {m : MemOperand} {taken : Bool}
    (hk : ∀ a, P (s.setPc a)) : P (s.jumpIf m taken) :=
  State.jumpIf_elim (fun _ => h.raiseProgram hs _ _) (fun _ _ _ => hk _) (fun _ => hs)

theorem Robust.restoreContext (h : Robust P) (hs : P s) {base : Addr} (hk : P (s.loadContext base)) :
    P (s.restoreContext base) :=
  State.restoreContext_elim (h.abort s hs) (h.noteRead _ _ _ hk)

end Sys2Proof.Machine
end

