-- ==== Sys2Proof/Laws/PerInstr.lean ====
section
/-! SUPPORT. The per-instruction family EncodedLength: an encoding has the length that fetch consumes, between one and
four bytes (spec/30_encoding.md R90), one lemma per constructor of Instr. -/

namespace Sys2Proof.Laws

theorem encodeOperand_length (op : Byte) (m : MemOperand) : (encodeOperand op m).length = operandLength m := by
  cases m <;> rfl

theorem operandLength_bounds (m : MemOperand) : 1 ≤ operandLength m ∧ operandLength m ≤ 4 := by
  cases m <;> simp [operandLength]

/-- The encoding's length is the instruction's, one to four bytes (R90). -/
def EncodedLength.Statement (i : Instr) : Prop :=
  (encode i).length = instrLength i ∧ 1 ≤ instrLength i ∧ instrLength i ≤ 4

theorem EncodedLength.lda (m : MemOperand) : EncodedLength.Statement (.lda m) :=
  ⟨encodeOperand_length _ m, operandLength_bounds m⟩
theorem EncodedLength.ldx (m : MemOperand) : EncodedLength.Statement (.ldx m) :=
  ⟨encodeOperand_length _ m, operandLength_bounds m⟩
theorem EncodedLength.ldl (m : MemOperand) : EncodedLength.Statement (.ldl m) :=
  ⟨encodeOperand_length _ m, operandLength_bounds m⟩
theorem EncodedLength.sta (m : MemOperand) : EncodedLength.Statement (.sta m) :=
  ⟨encodeOperand_length _ m, operandLength_bounds m⟩
theorem EncodedLength.stx (m : MemOperand) : EncodedLength.Statement (.stx m) :=
  ⟨encodeOperand_length _ m, operandLength_bounds m⟩
theorem EncodedLength.stl (m : MemOperand) : EncodedLength.Statement (.stl m) :=
  ⟨encodeOperand_length _ m, operandLength_bounds m⟩
theorem EncodedLength.add (m : MemOperand) : EncodedLength.Statement (.add m) :=
  ⟨encodeOperand_length _ m, operandLength_bounds m⟩
theorem EncodedLength.sub (m : MemOperand) : EncodedLength.Statement (.sub m) :=
  ⟨encodeOperand_length _ m, operandLength_bounds m⟩
theorem EncodedLength.mul (m : MemOperand) : EncodedLength.Statement (.mul m) :=
  ⟨encodeOperand_length _ m, operandLength_bounds m⟩
theorem EncodedLength.div (m : MemOperand) : EncodedLength.Statement (.div m) :=
  ⟨encodeOperand_length _ m, operandLength_bounds m⟩
theorem EncodedLength.comp (m : MemOperand) : EncodedLength.Statement (.comp m) :=
  ⟨encodeOperand_length _ m, operandLength_bounds m⟩
theorem EncodedLength.tix (m : MemOperand) : EncodedLength.Statement (.tix m) :=
  ⟨encodeOperand_length _ m, operandLength_bounds m⟩
theorem EncodedLength.jeq (m : MemOperand) : EncodedLength.Statement (.jeq m) :=
  ⟨encodeOperand_length _ m, operandLength_bounds m⟩
theorem EncodedLength.jgt (m : MemOperand) : EncodedLength.Statement (.jgt m) :=
  ⟨encodeOperand_length _ m, operandLength_bounds m⟩
theorem EncodedLength.jlt (m : MemOperand) : EncodedLength.Statement (.jlt m) :=
  ⟨encodeOperand_length _ m, operandLength_bounds m⟩
theorem EncodedLength.j (m : MemOperand) : EncodedLength.Statement (.j m) :=
  ⟨encodeOperand_length _ m, operandLength_bounds m⟩
theorem EncodedLength.and (m : MemOperand) : EncodedLength.Statement (.and m) :=
  ⟨encodeOperand_length _ m, operandLength_bounds m⟩
theorem EncodedLength.or (m : MemOperand) : EncodedLength.Statement (.or m) :=
  ⟨encodeOperand_length _ m, operandLength_bounds m⟩
theorem EncodedLength.jsub (m : MemOperand) : EncodedLength.Statement (.jsub m) :=
  ⟨encodeOperand_length _ m, operandLength_bounds m⟩
theorem EncodedLength.rsub (m : MemOperand) : EncodedLength.Statement (.rsub m) :=
  ⟨encodeOperand_length _ m, operandLength_bounds m⟩
theorem EncodedLength.ldch (m : MemOperand) : EncodedLength.Statement (.ldch m) :=
  ⟨encodeOperand_length _ m, operandLength_bounds m⟩
theorem EncodedLength.stch (m : MemOperand) : EncodedLength.Statement (.stch m) :=
  ⟨encodeOperand_length _ m, operandLength_bounds m⟩
theorem EncodedLength.addf (m : MemOperand) : EncodedLength.Statement (.addf m) :=
  ⟨encodeOperand_length _ m, operandLength_bounds m⟩
theorem EncodedLength.subf (m : MemOperand) : EncodedLength.Statement (.subf m) :=
  ⟨encodeOperand_length _ m, operandLength_bounds m⟩
theorem EncodedLength.mulf (m : MemOperand) : EncodedLength.Statement (.mulf m) :=
  ⟨encodeOperand_length _ m, operandLength_bounds m⟩
theorem EncodedLength.divf (m : MemOperand) : EncodedLength.Statement (.divf m) :=
  ⟨encodeOperand_length _ m, operandLength_bounds m⟩
theorem EncodedLength.ldb (m : MemOperand) : EncodedLength.Statement (.ldb m) :=
  ⟨encodeOperand_length _ m, operandLength_bounds m⟩
theorem EncodedLength.lds (m : MemOperand) : EncodedLength.Statement (.lds m) :=
  ⟨encodeOperand_length _ m, operandLength_bounds m⟩
theorem EncodedLength.ldf (m : MemOperand) : EncodedLength.Statement (.ldf m) :=
  ⟨encodeOperand_length _ m, operandLength_bounds m⟩
theorem EncodedLength.ldt (m : MemOperand) : EncodedLength.Statement (.ldt m) :=
  ⟨encodeOperand_length _ m, operandLength_bounds m⟩
theorem EncodedLength.stb (m : MemOperand) : EncodedLength.Statement (.stb m) :=
  ⟨encodeOperand_length _ m, operandLength_bounds m⟩
theorem EncodedLength.sts (m : MemOperand) : EncodedLength.Statement (.sts m) :=
  ⟨encodeOperand_length _ m, operandLength_bounds m⟩
theorem EncodedLength.stf (m : MemOperand) : EncodedLength.Statement (.stf m) :=
  ⟨encodeOperand_length _ m, operandLength_bounds m⟩
theorem EncodedLength.stt (m : MemOperand) : EncodedLength.Statement (.stt m) :=
  ⟨encodeOperand_length _ m, operandLength_bounds m⟩
theorem EncodedLength.compf (m : MemOperand) : EncodedLength.Statement (.compf m) :=
  ⟨encodeOperand_length _ m, operandLength_bounds m⟩
theorem EncodedLength.lps (m : MemOperand) : EncodedLength.Statement (.lps m) :=
  ⟨encodeOperand_length _ m, operandLength_bounds m⟩
theorem EncodedLength.sti (m : MemOperand) : EncodedLength.Statement (.sti m) :=
  ⟨encodeOperand_length _ m, operandLength_bounds m⟩
theorem EncodedLength.rd (m : MemOperand) : EncodedLength.Statement (.rd m) :=
  ⟨encodeOperand_length _ m, operandLength_bounds m⟩
theorem EncodedLength.wd (m : MemOperand) : EncodedLength.Statement (.wd m) :=
  ⟨encodeOperand_length _ m, operandLength_bounds m⟩
theorem EncodedLength.td (m : MemOperand) : EncodedLength.Statement (.td m) :=
  ⟨encodeOperand_length _ m, operandLength_bounds m⟩
theorem EncodedLength.stsw (m : MemOperand) : EncodedLength.Statement (.stsw m) :=
  ⟨encodeOperand_length _ m, operandLength_bounds m⟩
theorem EncodedLength.ssk (m : MemOperand) : EncodedLength.Statement (.ssk m) :=
  ⟨encodeOperand_length _ m, operandLength_bounds m⟩
theorem EncodedLength.addr (r1 r2 : Nibble) : EncodedLength.Statement (.addr r1 r2) := ⟨rfl, by simp [instrLength]⟩
theorem EncodedLength.subr (r1 r2 : Nibble) : EncodedLength.Statement (.subr r1 r2) := ⟨rfl, by simp [instrLength]⟩
theorem EncodedLength.mulr (r1 r2 : Nibble) : EncodedLength.Statement (.mulr r1 r2) := ⟨rfl, by simp [instrLength]⟩
theorem EncodedLength.divr (r1 r2 : Nibble) : EncodedLength.Statement (.divr r1 r2) := ⟨rfl, by simp [instrLength]⟩
theorem EncodedLength.compr (r1 r2 : Nibble) : EncodedLength.Statement (.compr r1 r2) := ⟨rfl, by simp [instrLength]⟩
theorem EncodedLength.shiftl (r1 r2 : Nibble) : EncodedLength.Statement (.shiftl r1 r2) := ⟨rfl, by simp [instrLength]⟩
theorem EncodedLength.shiftr (r1 r2 : Nibble) : EncodedLength.Statement (.shiftr r1 r2) := ⟨rfl, by simp [instrLength]⟩
theorem EncodedLength.rmo (r1 r2 : Nibble) : EncodedLength.Statement (.rmo r1 r2) := ⟨rfl, by simp [instrLength]⟩
theorem EncodedLength.svc (r1 r2 : Nibble) : EncodedLength.Statement (.svc r1 r2) := ⟨rfl, by simp [instrLength]⟩
theorem EncodedLength.clear (r1 r2 : Nibble) : EncodedLength.Statement (.clear r1 r2) := ⟨rfl, by simp [instrLength]⟩
theorem EncodedLength.tixr (r1 r2 : Nibble) : EncodedLength.Statement (.tixr r1 r2) := ⟨rfl, by simp [instrLength]⟩
theorem EncodedLength.float : EncodedLength.Statement .float := ⟨rfl, by simp [instrLength]⟩
theorem EncodedLength.fix : EncodedLength.Statement .fix := ⟨rfl, by simp [instrLength]⟩
theorem EncodedLength.norm : EncodedLength.Statement .norm := ⟨rfl, by simp [instrLength]⟩
theorem EncodedLength.sio : EncodedLength.Statement .sio := ⟨rfl, by simp [instrLength]⟩
theorem EncodedLength.hio : EncodedLength.Statement .hio := ⟨rfl, by simp [instrLength]⟩
theorem EncodedLength.tio : EncodedLength.Statement .tio := ⟨rfl, by simp [instrLength]⟩

end Sys2Proof.Laws
end

