-- ==== Sys2Proof/Tests/Slice0.lean ====
section
/-! SUPPORT. Tests: well-formedness, decoding of words written out from spec/30_encoding.md, one step each on the
vectors of spec/95_test_vectors.md, the host's two entry points, and for every obligation with hypotheses a witness
that meets them. Every expected result is the spec's. -/

namespace Sys2Proof.Tests

open Sys2Proof.Machine

/-! ### Helpers -/

/-- The reset state with PC set and some bytes of memory loaded (the start states of 95_test_vectors.md). -/
def load (pc : Addr) (image : List (Addr × List Byte)) : State :=
  { State.reset with pc := pc, mem := image.foldl (fun m p => Memory.writeBytes m p.1 p.2) [] }

/-- `n` bytes of memory from `a`. -/
def bytesAt (s : State) (a : Addr) (n : Nat) : List Byte :=
  (List.range n).map fun k => Memory.byte s.mem (a + BitVec.ofNat 20 k)

/-- One step ends in a next state that passes `p`. -/
def after (s : State) (p : State → Bool) : Bool :=
  match step s with
  | .next t => p t
  | .fault _ => false
  | .refused _ => false

/-- The bytes are exactly the instruction. -/
def decodesTo (bytes : List Byte) (i : Instr) : Bool :=
  match decode bytes with
  | .ok (j, rest) => j == i && rest == []
  | .error _ => false

/-- The decoder refuses by the name of the illegal opcode. -/
def refuses (b0 : Byte) : Bool :=
  match decode [b0, 0, 0, 0] with
  | .ok _ => false
  | .error e => e == .illegalOpcode b0

/-! ### Well-formedness -/

theorem test_wellFormed_refuses_f3 : (Instr.lda (.f3 false false false false false 0)).wellFormed = false := by decide
theorem test_wellFormed_refuses_f4 : (Instr.sta (.f4 false false true false false 0)).wellFormed = false := by decide
theorem test_wellFormed_accepts :
    (Instr.lda (.sic true 0x7FFF)).wellFormed = true ∧ (Instr.lda (.f3 false true true true true 0)).wellFormed = true ∧
      (Instr.svc 15 15).wellFormed = true := by decide

/-! ### Decoding, one word for each constructor (opcode numbers of R99, fields of R91 to R95) -/

theorem test_decode_lda :
    decodesTo [0b00000010, 0b00011011, 0b01101001, 0b10100100] (.lda (.f4 true false false false false 0xB69A4)) = true := by decide
theorem test_decode_ldx :
    decodesTo [0b00000100, 0b00011000, 0b11010110] (.ldx (.sic false 0x18D6)) = true := by decide
theorem test_decode_ldl :
    decodesTo [0b00001011, 0b10001011, 0b00101000] (.ldl (.f3 true true true false false 0xB28)) = true := by decide
theorem test_decode_sta :
    decodesTo [0b00001110, 0b01011110, 0b10010001, 0b11111101] (.sta (.f4 true false false true false 0xE91FD)) = true := by decide
theorem test_decode_stx : decodesTo [0b00010000, 0b10100010, 0b11001001] (.stx (.sic true 0x22C9)) = true := by decide
theorem test_decode_stl :
    decodesTo [0b00010111, 0b11000000, 0b10101101] (.stl (.f3 true true true true false 0x0AD)) = true := by decide
theorem test_decode_add :
    decodesTo [0b00011010, 0b11010001, 0b10111010, 0b01010110] (.add (.f4 true false true true false 0x1BA56)) = true := by decide
theorem test_decode_sub :
    decodesTo [0b00011100, 0b00101100, 0b10111100] (.sub (.sic false 0x2CBC)) = true := by decide
theorem test_decode_mul :
    decodesTo [0b00100011, 0b00100110, 0b00110010] (.mul (.f3 true true false false true 0x632)) = true := by decide
theorem test_decode_div :
    decodesTo [0b00100110, 0b10110100, 0b11100010, 0b10101111] (.div (.f4 true false true false true 0x4E2AF)) = true := by decide
theorem test_decode_comp :
    decodesTo [0b00101000, 0b10110110, 0b10101111] (.comp (.sic true 0x36AF)) = true := by decide
theorem test_decode_tix :
    decodesTo [0b00101111, 0b01101011, 0b10110111] (.tix (.f3 true true false true true 0xBB7)) = true := by decide
theorem test_decode_jeq :
    decodesTo [0b00110010, 0b01111000, 0b00001011, 0b00001000] (.jeq (.f4 true false false true true 0x80B08)) = true := by decide
theorem test_decode_jgt :
    decodesTo [0b00110100, 0b01000000, 0b10100010] (.jgt (.sic false 0x40A2)) = true := by decide
theorem test_decode_jlt :
    decodesTo [0b00111011, 0b11100001, 0b00111100] (.jlt (.f3 true true true true true 0x13C)) = true := by decide
theorem test_decode_j :
    decodesTo [0b00111110, 0b00011011, 0b00110011, 0b01100001] (.j (.f4 true false false false false 0xB3361)) = true := by decide
theorem test_decode_and : decodesTo [0b01000000, 0b11001010, 0b10010101] (.and (.sic true 0x4A95)) = true := by decide
theorem test_decode_or :
    decodesTo [0b01000111, 0b10000110, 0b11000001] (.or (.f3 true true true false false 0x6C1)) = true := by decide
theorem test_decode_jsub :
    decodesTo [0b01001010, 0b10011110, 0b01011011, 0b10111010] (.jsub (.f4 true false true false false 0xE5BBA)) = true := by decide
theorem test_decode_rsub :
    decodesTo [0b01001100, 0b01010100, 0b10001000] (.rsub (.sic false 0x5488)) = true := by decide
theorem test_decode_ldch :
    decodesTo [0b01010011, 0b01001100, 0b01000110] (.ldch (.f3 true true false true false 0xC46)) = true := by decide
theorem test_decode_stch :
    decodesTo [0b01010110, 0b11010001, 0b10000100, 0b00010011] (.stch (.f4 true false true true false 0x18413)) = true := by decide
theorem test_decode_addf :
    decodesTo [0b01011000, 0b11011110, 0b01111011] (.addf (.sic true 0x5E7B)) = true := by decide
theorem test_decode_subf :
    decodesTo [0b01011111, 0b00100001, 0b11001011] (.subf (.f3 true true false false true 0x1CB)) = true := by decide
theorem test_decode_mulf :
    decodesTo [0b01100010, 0b00110100, 0b10101100, 0b01101100] (.mulf (.f4 true false false false true 0x4AC6C)) = true := by decide
theorem test_decode_divf :
    decodesTo [0b01100100, 0b01101000, 0b01101110] (.divf (.sic false 0x686E)) = true := by decide
theorem test_decode_ldb :
    decodesTo [0b01101011, 0b10100111, 0b01010000] (.ldb (.f3 true true true false true 0x750)) = true := by decide
theorem test_decode_lds :
    decodesTo [0b01101110, 0b01110111, 0b11010100, 0b11000101] (.lds (.f4 true false false true true 0x7D4C5)) = true := by decide
theorem test_decode_ldf : decodesTo [0b01110000, 0b11110010, 0b01100001] (.ldf (.sic true 0x7261)) = true := by decide
theorem test_decode_ldt :
    decodesTo [0b01110111, 0b11101100, 0b11010101] (.ldt (.f3 true true true true true 0xCD5)) = true := by decide
theorem test_decode_stb :
    decodesTo [0b01111010, 0b11111010, 0b11111101, 0b00011110] (.stb (.f4 true false true true true 0xAFD1E)) = true := by decide
theorem test_decode_sts :
    decodesTo [0b01111100, 0b01111100, 0b01010100] (.sts (.sic false 0x7C54)) = true := by decide
theorem test_decode_stf :
    decodesTo [0b10000011, 0b00000010, 0b01011010] (.stf (.f3 true true false false false 0x25A)) = true := by decide
theorem test_decode_stt :
    decodesTo [0b10000110, 0b10011110, 0b00100101, 0b01110111] (.stt (.f4 true false true false false 0xE2577)) = true := by decide
theorem test_decode_compf :
    decodesTo [0b10001000, 0b10000110, 0b01000111] (.compf (.sic true 0x0647)) = true := by decide
theorem test_decode_lps :
    decodesTo [0b11010011, 0b01000111, 0b11011111] (.lps (.f3 true true false true false 0x7DF)) = true := by decide
theorem test_decode_sti :
    decodesTo [0b11010110, 0b01010001, 0b01001101, 0b11010000] (.sti (.f4 true false false true false 0x14DD0)) = true := by decide
theorem test_decode_rd : decodesTo [0b11011000, 0b00010000, 0b00111010] (.rd (.sic false 0x103A)) = true := by decide
theorem test_decode_wd :
    decodesTo [0b11011111, 0b11001101, 0b01100100] (.wd (.f3 true true true true false 0xD64)) = true := by decide
theorem test_decode_td :
    decodesTo [0b11100010, 0b00110100, 0b01110110, 0b00101001] (.td (.f4 true false false false true 0x47629)) = true := by decide
theorem test_decode_stsw :
    decodesTo [0b11101000, 0b10011010, 0b00101101] (.stsw (.sic true 0x1A2D)) = true := by decide
theorem test_decode_ssk :
    decodesTo [0b11101111, 0b10100010, 0b11101001] (.ssk (.f3 true true true false true 0x2E9)) = true := by decide
theorem test_decode_addr : decodesTo [0b10010000, 0b00000000] (.addr 0 0) = true := by decide
theorem test_decode_subr : decodesTo [0b10010100, 0b01110101] (.subr 7 5) = true := by decide
theorem test_decode_mulr : decodesTo [0b10011000, 0b11101010] (.mulr 14 10) = true := by decide
theorem test_decode_divr : decodesTo [0b10011100, 0b01011111] (.divr 5 15) = true := by decide
theorem test_decode_compr : decodesTo [0b10100000, 0b11000100] (.compr 12 4) = true := by decide
theorem test_decode_shiftl : decodesTo [0b10100100, 0b00111001] (.shiftl 3 9) = true := by decide
theorem test_decode_shiftr : decodesTo [0b10101000, 0b10101110] (.shiftr 10 14) = true := by decide
theorem test_decode_rmo : decodesTo [0b10101100, 0b00010011] (.rmo 1 3) = true := by decide
theorem test_decode_svc : decodesTo [0b10110000, 0b10001000] (.svc 8 8) = true := by decide
theorem test_decode_clear : decodesTo [0b10110100, 0b11111101] (.clear 15 13) = true := by decide
theorem test_decode_tixr : decodesTo [0b10111000, 0b01100010] (.tixr 6 2) = true := by decide
theorem test_decode_float : decodesTo [0b11000000] .float = true := by decide
theorem test_decode_fix : decodesTo [0b11000100] .fix = true := by decide
theorem test_decode_norm : decodesTo [0b11001000] .norm = true := by decide
theorem test_decode_sio : decodesTo [0b11110000] .sio = true := by decide
theorem test_decode_hio : decodesTo [0b11110100] .hio = true := by decide
theorem test_decode_tio : decodesTo [0b11111000] .tio = true := by decide

/-- The 71 illegal first bytes of R101, each end of each range. -/
theorem test_decode_refuses :
    ([0x8C, 0x8F, 0x91, 0x93, 0xB9, 0xBB, 0xBC, 0xBF, 0xC1, 0xCB, 0xCC, 0xCF, 0xE4, 0xE7, 0xF1, 0xFB, 0xFC, 0xFF] :
      List Byte).all refuses = true := by decide
theorem test_decode_truncated : decode [0x03, 0x10, 0x00] = .error .truncated := by rfl

/-! ### One step (95_test_vectors.md, Part 2; the comment names the vector) -/

/-- V1. -/
theorem test_lda_V1 : after (load 0x01000 [(0x01000, [0x03, 0x20, 0x0A]), (0x0100D, [0x00, 0x12, 0x34])])
    (fun t => t.regs.a == 0x001234 && t.pc == 0x01003) = true := by decide
/-- V172. -/
theorem test_lda_V172 : after { load 0x01000 [(0x01000, [0x00, 0x80, 0x30]), (0x00033, [0x00, 0xCA, 0xFE])] with
      regs := { Regs.zero with x := 0x3 } }
    (fun t => t.regs.a == 0x00CAFE && t.pc == 0x01003) = true := by decide
/-- V170. -/
theorem test_add_V170 : after { load 0x01000 [(0x01000, [0x1A, 0x80, 0x50]), (0x00050, [0x00, 0x40, 0x00]),
      (0x04003, [0x00, 0x00, 0x10])] with
      regs := { Regs.zero with a := 0x1, x := 0x3 } }
    (fun t => t.regs.a == 0x000011 && t.pc == 0x01003) = true := by decide
/-- V4. -/
theorem test_ldch_V4 : after { load 0x01000 [(0x01000, [0x53, 0x00, 0x40]), (0x00040, [0x41])] with
      regs := { Regs.zero with a := 0xABCDEF } }
    (fun t => t.regs.a == 0xABCD41 && t.pc == 0x01003) = true := by decide
/-- V5. -/
theorem test_ldch_V5 : after { load 0x01000 [(0x01000, [0x51, 0x01, 0x23])] with
      regs := { Regs.zero with a := 0xABCDEF } }
    (fun t => t.regs.a == 0xABCD23 && t.pc == 0x01003) = true := by decide
/-- V12. -/
theorem test_ldx_V12 : after { load 0x01000 [(0x01000, [0x07, 0xA0, 0x00]), (0x01006, [0x00, 0x00, 0x77])] with
      regs := { Regs.zero with x := 0x3 } }
    (fun t => t.regs.x == 0x000077 && t.pc == 0x01003) = true := by decide
/-- V14. -/
theorem test_ldl_V14 : after (load 0x01000 [(0x01000, [0x0B, 0x03, 0x00]), (0x00300, [0xAB, 0xCD, 0xEF])])
    (fun t => t.regs.l == 0xABCDEF && t.pc == 0x01003) = true := by decide
/-- V15. -/
theorem test_ldb_V15 : after (load 0x01000 [(0x01000, [0x6B, 0x03, 0x00]), (0x00300, [0xAB, 0xCD, 0xEF])])
    (fun t => t.regs.b == 0xABCDEF && t.pc == 0x01003) = true := by decide
/-- V16. -/
theorem test_lds_V16 : after (load 0x01000 [(0x01000, [0x6F, 0x03, 0x00]), (0x00300, [0xAB, 0xCD, 0xEF])])
    (fun t => t.regs.s == 0xABCDEF && t.pc == 0x01003) = true := by decide
/-- V17. -/
theorem test_ldt_V17 : after (load 0x01000 [(0x01000, [0x77, 0x03, 0x00]), (0x00300, [0xAB, 0xCD, 0xEF])])
    (fun t => t.regs.t == 0xABCDEF && t.pc == 0x01003) = true := by decide
/-- V10. -/
theorem test_ldf_V10 : after (load 0x01000 [(0x01000, [0x73, 0x02, 0x00]),
      (0x00200, [0x40, 0x09, 0x21, 0xFB, 0x54, 0x44])])
    (fun t => t.regs.f == 0x400921FB5444 && t.pc == 0x01003) = true := by decide
/-- V6. -/
theorem test_sta_V6 : after { load 0x01000 [(0x01000, [0x0F, 0x03, 0x00]), (0x002FF, [0, 0, 0, 0, 0])] with
      regs := { Regs.zero with a := 0x123456 } }
    (fun t => bytesAt t 0x2FF 5 == [0x00, 0x12, 0x34, 0x56, 0x00] && t.pc == 0x01003) = true := by decide
/-- V13. -/
theorem test_stx_V13 : after { load 0x01000 [(0x01000, [0x13, 0x83, 0x00])] with
      regs := { Regs.zero with x := 0x6 } }
    (fun t => bytesAt t 0x306 3 == [0x00, 0x00, 0x06] && t.pc == 0x01003) = true := by decide
/-- V18. -/
theorem test_stl_V18 : after { load 0x01000 [(0x01000, [0x17, 0x03, 0x00])] with
      regs := { Regs.zero with l := 0x1003 } }
    (fun t => bytesAt t 0x300 3 == [0x00, 0x10, 0x03] && t.pc == 0x01003) = true := by decide
/-- V19. -/
theorem test_stb_V19 : after { load 0x01000 [(0x01000, [0x7B, 0x03, 0x00])] with
      regs := { Regs.zero with b := 0xB0, s := 0xC0, t := 0xD0 } }
    (fun t => bytesAt t 0x300 3 == [0x00, 0x00, 0xB0] && t.pc == 0x01003) = true := by decide
/-- V19. -/
theorem test_sts_V19 : after { load 0x01000 [(0x01000, [0x7F, 0x03, 0x00])] with
      regs := { Regs.zero with b := 0xB0, s := 0xC0, t := 0xD0 } }
    (fun t => bytesAt t 0x300 3 == [0x00, 0x00, 0xC0] && t.pc == 0x01003) = true := by decide
/-- V19. -/
theorem test_stt_V19 : after { load 0x01000 [(0x01000, [0x87, 0x03, 0x00])] with
      regs := { Regs.zero with b := 0xB0, s := 0xC0, t := 0xD0 } }
    (fun t => bytesAt t 0x300 3 == [0x00, 0x00, 0xD0] && t.pc == 0x01003) = true := by decide
/-- V7. -/
theorem test_stch_V7 : after { load 0x01000 [(0x01000, [0x57, 0x03, 0x01]), (0x00300, [0x11, 0x12, 0x13])] with
      regs := { Regs.zero with a := 0xABCD41 } }
    (fun t => bytesAt t 0x300 3 == [0x11, 0x41, 0x13] && t.pc == 0x01003) = true := by decide
/-- V8. -/
theorem test_stsw_V8 : after { load 0x01000 [(0x01000, [0xEB, 0x03, 0x00])] with
      sw := { StatusWord.reset with cc := 0b01, mask := 0b1111, icode := 0x07 }
      timer := 100 }
    (fun t => bytesAt t 0x300 3 == [0x07, 0x0F, 0x41] && t.pc == 0x01003 && t.timer.toInt == 99) = true := by decide
/-- V11. -/
theorem test_stf_V11 : after { load 0x01000 [(0x01000, [0x83, 0x02, 0x10])] with
      regs := { Regs.zero with f := 0x400921FB5444 } }
    (fun t => bytesAt t 0x210 6 == [0x40, 0x09, 0x21, 0xFB, 0x54, 0x44] && t.pc == 0x01003) = true := by decide
/-- V9. -/
theorem test_sta_V9 : after { load 0x01000 [(0x01000, [0x0F, 0x1F, 0xFF, 0xFE]), (0x00000, [0xEE])] with
      regs := { Regs.zero with a := 0xA1B2C3 } }
    (fun t => bytesAt t 0xFFFFE 3 == [0xA1, 0xB2, 0xC3] && t.pc == 0x01004) = true := by decide
/-- V20. -/
theorem test_add_V20 : after { load 0x01000 [(0x01000, [0x19, 0x00, 0x02])] with
      regs := { Regs.zero with a := 0xFFFFFF } }
    (fun t => t.regs.a == 0x000001 && t.pc == 0x01003 && t.reports == [] && t.sw.cc == 0) = true := by decide
/-- V22. -/
theorem test_sub_V22 : after { load 0x01000 [(0x01000, [0x1D, 0x00, 0x07])] with
      regs := { Regs.zero with a := 0x5 } }
    (fun t => t.regs.a == 0xFFFFFE && t.sw.cc == 0) = true := by decide
/-- V23. -/
theorem test_mul_V23 : after { load 0x01000 [(0x01000, [0x21, 0x10, 0x10, 0x00])] with
      regs := { Regs.zero with a := 0x1000 } }
    (fun t => t.regs.a == 0x000000 && t.pc == 0x01004) = true := by decide
/-- V24. -/
theorem test_mul_V24 : after { load 0x01000 [(0x01000, [0x21, 0x00, 0x03])] with
      regs := { Regs.zero with a := 0xFFFFFE } }
    (fun t => t.regs.a == 0xFFFFFA) = true := by decide
/-- V31. -/
theorem test_div_V31 : after { load 0x01000 [(0x01000, [0x27, 0x03, 0x00]), (0x00300, [0x00, 0x00, 0x02])] with
      regs := { Regs.zero with a := 0xFFFFF9 } }
    (fun t => t.regs.a == 0xFFFFFD && t.sw.cc == 0 && t.reports == []) = true := by decide
/-- V38. -/
theorem test_div_V38 : after { load 0x01000 [(0x01000, [0x27, 0x03, 0x00]), (0x00300, [0x00, 0x00, 0x00])] with
      regs := { Regs.zero with a := 0xA }
      sw := { StatusWord.reset with mask := 0b0100 } }
    (fun t => t.regs.a == 0x00000A && t.reports == [.divZero] && t.pend == Pending.empty && t.pc == 0x01003) = true := by decide
/-- V40. -/
theorem test_and_V40 : after { load 0x01000 [(0x01000, [0x41, 0x00, 0xFF])] with
      regs := { Regs.zero with a := 0xABCDEF } }
    (fun t => t.regs.a == 0x0000EF) = true := by decide
/-- V41. -/
theorem test_or_V41 : after { load 0x01000 [(0x01000, [0x45, 0x00, 0x0F])] with
      regs := { Regs.zero with a := 0xF000 } }
    (fun t => t.regs.a == 0x00F00F) = true := by decide
/-- V43. -/
theorem test_comp_V43 : after { load 0x01000 [(0x01000, [0x29, 0x00, 0x05])] with
      regs := { Regs.zero with a := 0xFFFFFF } }
    (fun t => t.sw.cc == 0b01) = true := by decide
/-- V45. -/
theorem test_comp_V45 : after { load 0x01000 [(0x01000, [0x2B, 0x03, 0x00]), (0x00300, [0x80, 0x00, 0x00])] with
      regs := { Regs.zero with a := 0x7FFFFF } }
    (fun t => t.sw.cc == 0b10) = true := by decide
/-- V48. -/
theorem test_tix_V48 : after { load 0x01000 [(0x01000, [0x2D, 0x00, 0x00])] with
      regs := { Regs.zero with x := 0xFFFFFF } }
    (fun t => t.regs.x == 0x000000 && t.sw.cc == 0b00) = true := by decide
/-- V49. -/
theorem test_tix_V49 : after { load 0x01000 [(0x01000, [0x2D, 0x00, 0x00])] with
      regs := { Regs.zero with x := 0x7FFFFF } }
    (fun t => t.regs.x == 0x800000 && t.sw.cc == 0b01) = true := by decide
/-- V50. -/
theorem test_addr_V50 : after { load 0x01000 [(0x01000, [0x90, 0x10])] with
      regs := { Regs.zero with a := 0xFFFFFF, x := 0x2 } }
    (fun t => t.regs.a == 0x000001 && t.regs.x == 0x000002 && t.pc == 0x01002) = true := by decide
/-- V51. -/
theorem test_subr_V51 : after { load 0x01000 [(0x01000, [0x94, 0x40])] with
      regs := { Regs.zero with a := 0x5, s := 0x7 } }
    (fun t => t.regs.a == 0xFFFFFE && t.pc == 0x01002) = true := by decide
/-- V52. -/
theorem test_mulr_V52 : after { load 0x01000 [(0x01000, [0x98, 0x50])] with
      regs := { Regs.zero with a := 0x6, t := 0x7 } }
    (fun t => t.regs.a == 0x00002A && t.pc == 0x01002) = true := by decide
/-- V55. -/
theorem test_divr_V55 : after { load 0x01000 [(0x01000, [0x9C, 0x10])] with
      regs := { Regs.zero with a := 0xFFFFF9, x := 0x2 } }
    (fun t => t.regs.a == 0xFFFFFD && t.pc == 0x01002) = true := by decide
/-- V54. -/
theorem test_divr_V54 : after { load 0x01000 [(0x01000, [0x9C, 0x10]),
      (0x00130, [0x00, 0x00, 0x01, 0x00, 0x02, 0x40])] with
      regs := { Regs.zero with a := 0xA }
      sw := { StatusWord.reset with mask := 0b0100 } }
    (fun t => t.pc==0x240 && packSW t.sw == 0x000001 && t.regs.a == 0x00000A && bytesAt t 0x136 6 == [0x00, 0x04,
       0x01, 0x00, 0x10, 0x02] && t.reports == []) = true := by decide
/-- V57. -/
theorem test_compr_V57 : after { load 0x01000 [(0x01000, [0xA0, 0x04])] with
      regs := { Regs.zero with a := 0xFFFFFF, s := 0x1 } }
    (fun t => t.sw.cc == 0b01 && t.pc == 0x01002) = true := by decide
/-- V60. -/
theorem test_shiftl_V60 : after { load 0x01000 [(0x01000, [0xA4, 0x0F])] with
      regs := { Regs.zero with a := 0x123456 } }
    (fun t => t.regs.a == 0x561234 && t.pc == 0x01002) = true := by decide
/-- V74. -/
theorem test_shiftl_V74 : after { load 0x01000 [(0x01000, [0xA4, 0x0A])] with
      regs := { Regs.zero with a := 0x1 } }
    (fun t => t.regs.a == 0x000800 && t.pc == 0x01002 && t.reports == []) = true := by decide
/-- V61. -/
theorem test_shiftr_V61 : after { load 0x01000 [(0x01000, [0xA8, 0x03])] with
      regs := { Regs.zero with a := 0x800000 } }
    (fun t => t.regs.a == 0xF80000 && t.pc == 0x01002) = true := by decide
/-- V63. -/
theorem test_shiftr_V63 : after { load 0x01000 [(0x01000, [0xA8, 0x0F])] with
      regs := { Regs.zero with a := 0x7FFFFF } }
    (fun t => t.regs.a == 0x00007F && t.pc == 0x01002) = true := by decide
/-- V65. -/
theorem test_rmo_V65 : after { load 0x01000 [(0x01000, [0xAC, 0x08])] with
      regs := { Regs.zero with a := 0x123456 } }
    (fun t => t.pc==0x23456) = true := by decide
/-- V66. -/
theorem test_rmo_V66 : after { load 0x01000 [(0x01000, [0xAC, 0x09])] with
      regs := { Regs.zero with a := 0x120AA6 }
      timer := 100 }
    (fun t => t.sw == {mode := .user, idle := true, id := 9, cc := 0b10, mask := 0b1010, icode := 0x12} && packSW t.sw == 0x120AA6 && t.pc == 0x01002 && t.timer.toInt == 99 && t.pend == Pending.empty) = true := by decide
/-- V68. -/
theorem test_clear_V68 : after { load 0x01000 [(0x01000, [0xB4, 0x10])] with
      regs := { Regs.zero with x := 0x4D } }
    (fun t => t.regs.x == 0x0 && t.pc == 0x01002) = true := by decide
/-- V70. -/
theorem test_tixr_V70 : after { load 0x01000 [(0x01000, [0xB8, 0x50])] with
      regs := { Regs.zero with x := 0xA, t := 0xA } }
    (fun t => t.regs.x == 0xB && t.sw.cc == 0b10) = true := by decide
/-- V71. -/
theorem test_tixr_V71 : after { load 0x01000 [(0x01000, [0xB8, 0x10])] with
      regs := { Regs.zero with x := 0x29 } }
    (fun t => t.regs.x == 0x2A && t.sw.cc == 0b00) = true := by decide
/-- V77. -/
theorem test_addr_V77 : after { load 0x01000 [(0x01000, [0x90, 0x08])] with
      regs := { Regs.zero with a := 0x10 } }
    (fun t => t.pc==0x1012) = true := by decide
/-- V75. -/
theorem test_clear_V75 : after { load 0x01000 [(0x01000, [0xB4, 0xA0])] with
      regs := { Regs.zero with a := 0x1 } }
    (fun t => t.reports == [.badRegister] && t.regs.a == 0x1) = true := by decide
/-- V80. -/
theorem test_j_V80 : after (load 0x01000 [(0x01000, [0x3F, 0x20, 0x06])])
    (fun t => t.pc==0x1009) = true := by decide
/-- V90. -/
theorem test_j_V90 : after (load 0x01000 [(0x01000, [0x3E, 0x20, 0x06]), (0x01009, [0xF1, 0x23, 0x45])])
    (fun t => t.pc==0x12345) = true := by decide
/-- V82. -/
theorem test_jeq_V82 : after (load 0x01000 [(0x01000, [0x33, 0x20, 0x03])])
    (fun t => t.pc==0x1006) = true := by decide
/-- V83. -/
theorem test_jeq_V83 : after { load 0x01000 [(0x01000, [0x33, 0x20, 0x03])] with
      sw := { StatusWord.reset with cc := 0b01 } }
    (fun t => t.pc==0x1003) = true := by decide
/-- V84. -/
theorem test_jgt_V84 : after { load 0x01000 [(0x01000, [0x37, 0x20, 0x03])] with
      sw := { StatusWord.reset with cc := 0b10 } }
    (fun t => t.pc==0x1006) = true := by decide
/-- V85. -/
theorem test_jlt_V85 : after { load 0x01009 [(0x01009, [0x3B, 0x2F, 0xF7])] with
      sw := { StatusWord.reset with cc := 0b01 } }
    (fun t => t.pc==0x1003) = true := by decide
/-- V86. -/
theorem test_jsub_V86 : after (load 0x01000 [(0x01000, [0x4B, 0x20, 0x0D])])
    (fun t => t.regs.l == 0x001003 && t.pc==0x1010 && t.trace==[0x1003]) = true := by decide
/-- V87. -/
theorem test_jsub_V87 : after (load 0x01000 [(0x01000, [0x4B, 0x10, 0x20, 0x00])])
    (fun t => t.regs.l == 0x001004 && t.pc==0x2000 && t.trace==[0x1004]) = true := by decide
/-- V88. -/
theorem test_rsub_V88 : after { load 0x01010 [(0x01010, [0x4F, 0x00, 0x00])] with
      regs := { Regs.zero with l := 0x1003 }
      trace := [0x1003] }
    (fun t => t.pc==0x1003 && t.trace==[] && t.reports == []) = true := by decide
/-- V89. -/
theorem test_rsub_V89 : after { load 0x01000 [(0x01000, [0x4F, 0x00, 0x00])] with
      regs := { Regs.zero with l := 0xF12345 } }
    (fun t => t.pc==0x12345 && t.reports == [.rsubEmptyTrace]) = true := by decide
/-- V92. -/
theorem test_jlt_V92 : after (load 0x01000 [(0x01000, [0x39, 0x00, 0x10])])
    (fun t => t.pc == 0x01003) = true := by decide
/-- V111. -/
theorem test_float_V111 : after { load 0x01000 [(0x01000, [0xC0])] with
      regs := { Regs.zero with a := 0x5 } }
    (fun t => t.regs.a == 0x5 && t.reports == [.unimplemented] && t.pc==0x01001) = true := by decide
/-- V131a. -/
theorem test_fix_V131a : after { load 0x01000 [(0x01000, [0xC4])] with
      regs := { Regs.zero with a := 0x5 } }
    (fun t => t.regs.a == 0x5 && t.reports == [.unimplemented] && t.pc==0x01001) = true := by decide
/-- V131a. -/
theorem test_norm_V131a : after { load 0x01000 [(0x01000, [0xC8])] with
      regs := { Regs.zero with a := 0x5 } }
    (fun t => t.regs.a == 0x5 && t.reports == [.unimplemented] && t.pc==0x01001) = true := by decide
/-- V118. -/
theorem test_rd_V118 : after { load 0x01000 [(0x01000, [0xDB, 0x03, 0x00]), (0x00300, [0xF1])] with
      regs := { Regs.zero with a := 0x123400 }
      bus := { present := [0xF1], answers := [{ fails := false, byte := 0x41, ready := true }], log := [] } }
    (fun t => t.regs.a == 0x123441 && t.pc == 0x01003 && t.bus.log == [.read 0xF1]) = true := by decide
/-- V119. -/
theorem test_rd_V119 : after { load 0x01000 [(0x01000, [0xDB, 0x03, 0x00]), (0x00300, [0xF2])] with
      regs := { Regs.zero with a := 0x123400 } }
    (fun t => t.regs.a == 0x123400 && t.reports == [.deviceAbsent]) = true := by decide
/-- V120. -/
theorem test_wd_V120 : after { load 0x01000 [(0x01000, [0xDD, 0x00, 0x01])] with
      regs := { Regs.zero with a := 0x123441 }
      bus := { present := [0x01], answers := [{ fails := false, byte := 0, ready := true }], log := [] } }
    (fun t => t.bus.log == [.write 0x01 0x41] && t.regs.a == 0x123441 && t.reports == []) = true := by decide
/-- V121. -/
theorem test_td_V121 : after { load 0x01000 [(0x01000, [0xE1, 0x00, 0x05])] with
      sw := { StatusWord.reset with cc := 0b10 }
      bus := { present := [5], answers := [{ fails := false, byte := 0, ready := true }], log := [] } }
    (fun t => t.sw.cc == 0b01) = true := by decide
/-- V123. -/
theorem test_td_V123 : after { load 0x01000 [(0x01000, [0xE1, 0x00, 0x05])] with
      sw := { StatusWord.reset with cc := 0b10 } }
    (fun t => t.sw.cc == 0b00 && t.reports == [.deviceAbsent]) = true := by decide
/-- V115. -/
theorem test_sti_V115 : after { load 0x01000 [(0x01000, [0xD5, 0x00, 0x01]),
      (0x00160, [0x00, 0x00, 0x01, 0x00, 0x02, 0x80])] with
      sw := { StatusWord.reset with mask := 0b0010 } }
    (fun t => t.timer==0 && t.pc==0x280 && packSW t.sw == 0x000001 && bytesAt t 0x166 6 == [0x00, 0x02, 0x01,
       0x00, 0x10, 0x03]) = true := by decide
/-- V117. -/
theorem test_sti_V117 : after (load 0x01000 [(0x01000, [0xD7, 0x03, 0x00]), (0x00300, [0x80, 0x00, 0x00])])
    (fun t => t.timer.toInt == (-8388608)) = true := by decide
/-- V112. -/
theorem test_svc_V112 : after { load 0x01000 [(0x01000, [0xB0, 0x30]),
      (0x00100, [0x00, 0x00, 0x01, 0x00, 0x02, 0x00])] with
      sw := { StatusWord.reset with mask := 0b1000 } }
    (fun t => t.pc==0x200 && packSW t.sw == 0x030001 && bytesAt t 0x106 6 == [0x00, 0x08, 0x01, 0x00, 0x10,
       0x02]) = true := by decide
/-- V113. -/
theorem test_svc_V113 : after (load 0x01000 [(0x01000, [0xB0, 0x30])])
    (fun t => t.pend == Pending.empty && t.reports == [.svcDisabled] && t.pc == 0x01002) = true := by decide
/-- V160. -/
theorem test_lps_V160 : after { load 0x01000 [(0x01000, [0xD3, 0x05, 0x00]),
      (0x00506, [0x00, 0x0A, 0x81, 0x01, 0x23, 0x45, 0x00, 0x00, 0x11, 0x00, 0x00, 0x22, 0x00, 0x00, 0x33, 0x00,
       0x00, 0x44, 0x00, 0x00, 0x55, 0x00, 0x00, 0x66, 0xA1, 0xA2, 0xA3, 0xA4, 0xA5, 0xA6])] with
      timer := 50 }
    (fun t => packSW t.sw == 0x000A81 && t.pc==0x12345 && t.regs == { a := 0x11, x := 0x22, l := 0x33, b := 0x44, s := 0x55, t := 0x66, f := 0xA1A2A3A4A5A6 } && t.timer.toInt == 49) = true := by decide
/-- V161. -/
theorem test_lps_V161 : after { load 0x01000 [(0x01000, [0xD3, 0x05, 0x00]),
      (0x00506, [0x00, 0x0A, 0x81, 0x01, 0x23, 0x45, 0x00, 0x00, 0x11, 0x00, 0x00, 0x22, 0x00, 0x00, 0x33, 0x00,
       0x00, 0x44, 0x00, 0x00, 0x55, 0x00, 0x00, 0x66, 0xA1, 0xA2, 0xA3, 0xA4, 0xA5, 0xA6])] with
      sw := { StatusWord.reset with mode := .user } }
    (fun t => t.reports == [.privileged] && t.pc == 0x01003 && t.regs == Regs.zero) = true := by decide
/-- V110. -/
theorem test_sio_V110 : after (load 0x01000 [(0x01000, [0xF0])])
    (fun t => t.reports == [.unimplemented] && t.pc==0x01001) = true := by decide
/-- V110. -/
theorem test_hio_V110 : after (load 0x01000 [(0x01000, [0xF4])])
    (fun t => t.reports == [.unimplemented] && t.pc==0x01001) = true := by decide
/-- V110. -/
theorem test_tio_V110 : after (load 0x01000 [(0x01000, [0xF8])])
    (fun t => t.reports == [.unimplemented] && t.pc==0x01001) = true := by decide
/-- V110. -/
theorem test_ssk_V110 : after (load 0x01000 [(0x01000, [0xEF, 0x03, 0x00])])
    (fun t => t.reports == [.unimplemented] && t.pc == 0x01003) = true := by decide
/-- V100. -/
theorem test_illegal_V100 : after (load 0x01000 [(0x01000, [0xFF])])
    (fun t => t.reports == [.illegalOpcode] && t.pc==0x01001) = true := by decide
/-- V101. -/
theorem test_illegal_V101 : after { load 0x01000 [(0x01000, [0xFF]),
      (0x00130, [0x00, 0x00, 0x01, 0x00, 0x02, 0x40])] with
      sw := { StatusWord.reset with mask := 0b0100 } }
    (fun t => t.pc==0x240 && packSW t.sw == 0x000001 && bytesAt t 0x136 6 == [0x00, 0x04, 0x01, 0x00, 0x10,
       0x01]) = true := by decide
/-- V103. -/
theorem test_addrerr_V103 : after { load 0x01000 [(0x01000, [0x03, 0x30, 0x00, 0x00])] with
      regs := { Regs.zero with a := 0x9 } }
    (fun t => t.regs.a == 0x9 && t.reports == [.invalidAddressing] && t.pc == 0x01004) = true := by decide
/-- V102. -/
theorem test_addrerr_V102 : after { load 0x01000 [(0x01000, [0x03, 0x30, 0x00, 0x00]),
      (0x00130, [0x00, 0x00, 0x01, 0x00, 0x02, 0x40])] with
      regs := { Regs.zero with a := 0x9 }
      sw := { StatusWord.reset with mask := 0b0100 } }
    (fun t => t.pc==0x240 && packSW t.sw == 0x020001 && bytesAt t 0x139 3 == [0x00, 0x10,
       0x04] && t.regs.a == 0x9) = true := by decide
/-- V106. -/
theorem test_wd_V106 : after { load 0x01000 [(0x01000, [0xDD, 0x00, 0x01]),
      (0x00130, [0x00, 0x00, 0x01, 0x00, 0x02, 0x40])] with
      regs := { Regs.zero with a := 0x41 }
      sw := { StatusWord.reset with mode := .user, mask := 0b0100 }
      bus := { present := [0x01], answers := [], log := [] } }
    (fun t => t.bus.log==[] && t.pc==0x240 && packSW t.sw == 0x010001 && bytesAt t 0x136 6 == [0x00, 0x04, 0x00,
       0x00, 0x10, 0x03]) = true := by decide
/-- V109. -/
theorem test_sio_V109 : after { load 0x01000 [(0x01000, [0xF0]), (0x00130, [0x00, 0x00, 0x01, 0x00, 0x02, 0x40])] with
      sw := { StatusWord.reset with mode := .user, mask := 0b0100 } }
    (fun t => packSW t.sw == 0x010001 && bytesAt t 0x139 3 == [0x00, 0x10, 0x01] && t.reports == []) = true := by decide
/-- V131. -/
theorem test_fix_V131 : after (load 0xFFFFF [(0xFFFFF, [0xC4])])
    (fun t => t.reports == [.unimplemented, .pcOverflow] && t.pc==0) = true := by decide
/-- V152. -/
theorem test_io_V152 : after { load 0x01000 [(0x01000, [0xB4, 0x00]),
      (0x00190, [0x00, 0x00, 0x01, 0x00, 0x02, 0xC0])] with
      sw := { StatusWord.reset with mask := 0b0001 }
      ioIrq := [some 0x2A] }
    (fun t => t.pc==0x2C0 && packSW t.sw == 0x2A0001 && bytesAt t 0x196 6 == [0x00, 0x01, 0x01, 0x00, 0x10,
       0x02]) = true := by decide
/-- V153. -/
theorem test_io_V153 : after { load 0x01000 [(0x01000, [0xB4, 0x00]),
      (0x00190, [0x00, 0x00, 0x01, 0x00, 0x02, 0xC0])] with
      ioIrq := [some 0x2A] }
    (fun t => t.pc == 0x01002 && t.pend == Pending.empty) = true := by decide

/-- V200 to V206: the state after one step from F = f, M6(0x200) = g. -/
def floatStep (bytes : List Byte) : State :=
  match step { load 0x01000 [(0x01000, bytes), (0x00200, [0x40, 0x09, 0x21, 0xFB, 0x54, 0x44])] with
      regs := { Regs.zero with f := 0x0102030405FF } } with
  | .next t => t
  | .fault _ => State.reset
  | .refused _ => State.reset

/-- V200. -/
theorem test_addf_V200 : (floatStep [0x5B, 0x02, 0x00]).regs.f = Config.fpAdd 0x0102030405FF 0x400921FB5444 := by rfl
/-- V201: F is the first argument. -/
theorem test_subf_V201 : (floatStep [0x5F, 0x02, 0x00]).regs.f = Config.fpSub 0x0102030405FF 0x400921FB5444 := by rfl
/-- V202. -/
theorem test_mulf_V202 : (floatStep [0x63, 0x02, 0x00]).regs.f = Config.fpMul 0x0102030405FF 0x400921FB5444 := by rfl
/-- V203: F is the dividend. -/
theorem test_divf_V203 : (floatStep [0x67, 0x02, 0x00]).regs.f = Config.fpDiv 0x0102030405FF 0x400921FB5444 := by rfl
/-- V204. -/
theorem test_compf_V204 : (floatStep [0x8B, 0x02, 0x00]).sw.cc =
    ccOf (cmpDelta (Config.fpCmp 0x0102030405FF 0x400921FB5444)) := by rfl
/-- V206: a 12-bit direct field is not sign-extended before `FP.from_int`. -/
theorem test_addf_V206 : (floatStep [0x59, 0x0F, 0xFF]).regs.f =
    Config.fpAdd 0x0102030405FF (Config.fpFromInt 4095) := by rfl
/-- V207: `RMO F,A`. -/
theorem test_readReg_f_V207 : (floatStep [0xAC, 0x60]).regs.a =
    BitVec.ofInt 24 (Config.fpToInt 0x0102030405FF) := by rfl

/-! ### Memory that nothing has written (10_state.md R45, 93_implementation_defined.md U12) -/

/-- One byte listed at 0x301: the bytes around it read any value, the free one of each address. -/
theorem test_unwritten_U12 : bytesAt (load 0 [(0x00301, [0x41])]) 0x300 3 =
    [Config.unwrittenByte 0x00300, 0x41, Config.unwrittenByte 0x00302] := by rfl

/-! ### The host's entry points -/

theorem test_decodeTableWord :
    decodeTableWord 8 0x18 = some (.add (.sic false 0)) ∧
      decodeTableWord 16 0x109C = some (.divr 1 0) ∧ decodeTableWord 8 0xC4 = some .fix ∧
      decodeTableWord 8 0xFF = none := by decide
theorem test_withFetchWord :
    after (State.reset.withFetchWord 16 0x30B0) (fun t => t.reports == [.svcDisabled] && t.pc == 2) = true := by decide

/-! ### Witnesses: for each obligation with hypotheses a concrete state and operands that meet them, each clause at a
boundary of its range -/

/-- PC at 0x01000, supervisor mode, every class disabled, zeros at PC, at 0x50 and at 0x300, no device, no hook. -/
def base : State := load 0x01000 [(0x01000, [0, 0, 0, 0]), (0x00050, [0, 0, 0]), (0x00300, [0, 0, 0, 0, 0, 0])]

/-- The same in user mode. -/
def user : State := { base with sw := { StatusWord.reset with mode := .user } }

/-- The same with every class enabled. -/
def enabledAll : State := { base with sw := { StatusWord.reset with mask := 0b1111 } }

/-- The same with the hook aborting every access at 0x00300. -/
def hooked : State :=
  { base with hook :=
      [⟨0x00300, .read, .byte⟩, ⟨0x00300, .read, .word⟩, ⟨0x00300, .read, .float⟩,
       ⟨0x00300, .write, .byte⟩, ⟨0x00300, .write, .word⟩, ⟨0x00300, .write, .float⟩] }

/-- A direct operand at 0x300, one at the top of memory, an immediate operand, an addressing error. -/
def direct : MemOperand := .f3 true true false false false 0x300
def top : MemOperand := .f4 true true false false false 0xFFFFF
def immediate : MemOperand := .f3 false true false false false 5
def failing : MemOperand := .f3 true true false true true 0
def atDirect : Resolved := ⟨.simple, 0x000300, 0x000300⟩
def atTop : Resolved := ⟨.simple, 0x0FFFFF, 0x0FFFFF⟩
def atImmediate : Resolved := ⟨.immediate, 0x000005, 0x000005⟩

/-- The hypotheses of every clause of `OperandRule`, met. -/
def OperandWitness (w : AccessWidth) : Prop :=
  resolve failing base = none ∧
  (resolve direct hooked = some atDirect ∧ ReadAborts hooked atDirect w) ∧
  (resolve direct base = some atDirect ∧ ReadProceeds base atDirect w) ∧
  (resolve top hooked = some atTop ∧ ReadProceeds hooked atTop w) ∧
  resolve immediate hooked = some atImmediate ∧ ReadProceeds hooked atImmediate w

theorem operandWitness (w : AccessWidth) : OperandWitness w := by
  unfold OperandWitness ReadAborts ReadProceeds
  cases w <;> decide

/-- The hypotheses of every clause of `StoreRule`, met. -/
def StoreWitness (w : AccessWidth) : Prop :=
  resolve failing base = none ∧
  (resolve direct hooked = some atDirect ∧ HookPoint.mk (addr20 atDirect.ea) .write w ∈ hooked.hook) ∧
  resolve top hooked = some atTop ∧ HookPoint.mk (addr20 atTop.ea) .write w ∉ hooked.hook ∧
  Memory.wf hooked.mem = true

theorem storeWitness (w : AccessWidth) : StoreWitness w := by
  unfold StoreWitness
  cases w <;> decide

theorem witness_StepKeepsInvariant : GoodState enabledAll ∧ ∃ t, step enabledAll = .next t := by
  refine ⟨?_, _, rfl⟩
  unfold GoodState
  decide

theorem witness_DecodeOfEncode :
    (Instr.lda (.sic true 0x7FFF)).wellFormed = true ∧ (Instr.ssk (.f3 false true true true true 0xFFF)).wellFormed = true ∧
      (Instr.j (.f4 true false true true true 0xFFFFF)).wellFormed = true ∧ (Instr.tixr 15 15).wellFormed = true ∧
      Instr.tio.wellFormed = true := by decide

theorem witness_EncodeOfDecode :
    decode [0xEF, 0xEF, 0xFF, 0x12] = .ok (.ssk (.f3 true true true true true 0xFFF), [0x12]) := by rfl

theorem witness_IllegalOpcodeBytes :
    3 ≤ ([0, 0, 0] : List Byte).length ∧ decode [0x8C, 0, 0, 0] = .error (.illegalOpcode 0x8C) ∧
      decode [0xFF, 0, 0, 0] = .error (.illegalOpcode 0xFF) := ⟨by decide, rfl, rfl⟩

theorem witness_StepRunsDecodedInstruction :
    decode (load 0xFFFFF [(0xFFFFF, [0xB0]), (0x00000, [0x30, 0, 0])]).fetchBytes = .ok (.svc 3 0, [0, 0]) := by rfl

theorem witness_FetchAdvancesProgramCounter :
    (4 : Nat) ≤ 4 ∧ (load 0xFFFFC []).pc.toNat + 4 = 2 ^ 20 ∧ (load 0xFFFFB []).pc.toNat + 4 < 2 ^ 20 := by decide

theorem witness_IncPcWrapsWithReport :
    (load 0xFFFFF []).pc.toNat = 0xFFFFF ∧ (load 0xFFFFE []).pc.toNat ≠ 0xFFFFF := by decide

theorem witness_IllegalOpcodeCycle :
    decode (load 0x01000 [(0x01000, [0xFF])]).fetchBytes = .error (.illegalOpcode 0xFF) := by rfl

/-- `STA 0x300` aborted by the hook. -/
theorem witness_AbortedCycleAppliesNothing :
    after { hooked with mem := (load 0x01000 [(0x01000, [0x0F, 0x03, 0x00])]).mem } (fun t => t.aborted) = true := by
  decide

theorem witness_TimerTickCountsDown :
    let at0 := { enabledAll with timer := 0 }
    let at1 := { base with timer := 1 }
    at0.sw.mask.getLsbD 1 = true ∧ at1.sw.mask.getLsbD 1 = false ∧ 0 < at1.timer.toInt ∧ ¬ 0 < at0.timer.toInt := by
  decide

theorem witness_IoRequestSampled :
    base.ioIrq = [] ∧ { base with ioIrq := [none] }.ioIrq = none :: [] ∧
      ({ enabledAll with ioIrq := [some 0x2A] }.ioIrq = some 0x2A :: [] ∧ enabledAll.sw.mask.getLsbD 0 = true) ∧
      { base with ioIrq := [some 0xFF] }.ioIrq = some 0xFF :: [] ∧ base.sw.mask.getLsbD 0 = false := by decide

theorem witness_StatusWordRoundTrip :
    StatusWord.reset.cc ≠ 0b11#2 ∧ (0x0000C0#24).extractLsb' 6 2 = 0b11#2 ∧
      (0xFFFFBF#24).extractLsb' 6 2 ≠ 0b11#2 := by decide

theorem witness_ConditionCodeWriters :
    setsCondition (.lda direct) = false ∧ unpacksStatus (.lda direct) = false ∧
      setsCondition (.rmo 0 8) = false ∧ unpacksStatus (.rmo 0 8) = false ∧
      (∃ t, exec (.lda direct) base = .next t) ∧ ∃ t, exec (.rmo 0 8) base = .next t :=
  ⟨rfl, rfl, rfl, rfl, ⟨_, rfl⟩, _, rfl⟩

theorem witness_StatusFieldWriters :
    unpacksStatus (.comp direct) = false ∧ unpacksStatus (.rmo 9 8) = false ∧
      (∃ t, exec (.comp direct) base = .next t) ∧ ∃ t, exec (.rmo 9 8) base = .next t :=
  ⟨rfl, rfl, ⟨_, rfl⟩, _, rfl⟩

theorem witness_UserModeKeepsBusAndTimer :
    user.sw.mode = .user ∧ (∃ t, exec (.wd immediate) user = .next t) ∧ ∃ t, exec (.sti immediate) user = .next t :=
  ⟨rfl, ⟨_, rfl⟩, _, rfl⟩

theorem witness_PrivilegedTrapInUserMode :
    user.sw.mode = .user ∧ resolve direct user = some atDirect ∧ resolve immediate user = some atImmediate := by
  decide

theorem witness_OnlyStoresWriteMemory :
    isStore (.lda direct) = false ∧ (∃ t, exec (.lda direct) base = .next t) ∧
      isStore (.svc 15 0) = false ∧ ∃ t, exec (.svc 15 0) enabledAll = .next t := ⟨rfl, ⟨_, rfl⟩, rfl, _, rfl⟩

theorem witness_IndexRegisterWriters :
    writesIndex (.lda direct) = false ∧ (∃ t, exec (.lda direct) base = .next t) ∧
      writesIndex (.rmo 1 0) = false ∧ ∃ t, exec (.rmo 1 0) base = .next t := ⟨rfl, ⟨_, rfl⟩, rfl, _, rfl⟩

theorem witness_ProgramCounterWriters :
    writesProgramCounter (.lda direct) = false ∧ (∃ t, exec (.lda direct) base = .next t) ∧
      writesProgramCounter (.rmo 8 0) = false ∧ ∃ t, exec (.rmo 8 0) base = .next t := ⟨rfl, ⟨_, rfl⟩, rfl, _, rfl⟩

/-- An access at 0xFFFFE of a memory with bytes at both ends, the word running across the top. -/
theorem witness_RawAccessBytes :
    Memory.wf [(0x00000, 0xEE), (0xFFFFF, 0x01)] = true ∧
      (∀ k, k < 3 → (0x00001 : Addr) ≠ BitVec.ofNat 20 ((0xFFFFE : Addr).toNat + k)) ∧
      ∀ k, k < 6 → (0xFFFFD : Addr) ≠ BitVec.ofNat 20 ((0xFFFFE : Addr).toNat + k) := by decide

/-- A word across the top of memory, its first byte listed in one memory and written by nothing in the other. -/
theorem witness_ReadAndWriteBack :
    (Memory.wf [(0x00000, 0xEE), (0xFFFFE, 0x00), (0xFFFFF, 0x01)] = true ∧
      Memory.readWord [(0x00000, 0xEE), (0xFFFFE, 0x00), (0xFFFFF, 0x01)] 0xFFFFE = 0x0001EE) ∧
      Memory.wf [(0x00000, 0xEE), (0xFFFFF, 0x01)] = true := by decide

/-- SIC, simple, immediate, indirect and indexed, and PC-relative with a negative displacement. -/
theorem witness_ResolverAddresses :
    resolve (.sic true 0x7FFF) base = some ⟨.sic, 0x007FFF, 0x007FFF⟩ ∧ resolve top base = some atTop ∧
      resolve immediate base = some atImmediate ∧
      resolve (.f3 true false true false false 0x050) base = some ⟨.indirect, 0x000050, 0x000000⟩ ∧
      resolve (.f3 true true false false true 0xFFF) base = some ⟨.simple, 0x000FFF, 0x000FFF⟩ := by decide

theorem witness_ProgramConditionProcedure :
    enabledAll.sw.mask.getLsbD 2 = true ∧ base.sw.mask.getLsbD 2 = false := by decide

theorem witness_AddressingErrorCondition :
    (memOperandOf (.lda failing) = some failing ∧ resolve failing base = none) ∧
      (memOperandOf (.wd (.f4 true true false false true 0)) = some (.f4 true true false false true 0) ∧
        resolve (.f4 true true false false true 0) user = none) ∧
      memOperandOf (.jlt (.f3 false true true false false 5)) = some (.f3 false true true false false 5) ∧
        resolve (.f3 false true true false false 5) base = none := by decide

theorem witness_BadRegisterCondition :
    ((7 : Nibble) ∈ usedSelectors (.rmo 0 7) ∧ (7 : Nibble).toNat = 7) ∧
      ((10 : Nibble) ∈ usedSelectors (.clear 10 0) ∧ 10 ≤ (10 : Nibble).toNat) ∧
      (15 : Nibble) ∈ usedSelectors (.compr 15 7) ∧ 10 ≤ (15 : Nibble).toNat := by decide

theorem witness_WordLoads : OperandWitness .word := operandWitness .word
theorem witness_ByteAndFloatLoads : OperandWitness .byte ∧ OperandWitness .float :=
  ⟨operandWitness .byte, operandWitness .float⟩
theorem witness_WordStores : StoreWitness .word := storeWitness .word
theorem witness_ByteAndFloatStores : StoreWitness .byte ∧ StoreWitness .float :=
  ⟨storeWitness .byte, storeWitness .float⟩
theorem witness_IntegerArithmetic : OperandWitness .word := operandWitness .word
/-- Also a zero and a nonzero divisor. -/
theorem witness_DivideWord :
    OperandWitness .word ∧ wordValue base atDirect = 0 ∧ wordValue base atImmediate ≠ 0 :=
  ⟨operandWitness .word, by decide, by decide⟩
theorem witness_CompareWord : OperandWitness .word := operandWitness .word
theorem witness_IncrementAndCompareWord : OperandWitness .word := operandWitness .word

theorem witness_RegisterArithmetic : regOf 0 = some .a ∧ regOf 6 = some .f ∧ regOf 8 = some .pc ∧ regOf 9 = some .sw := by
  decide
/-- A zero divisor in X, a nonzero one in PC. -/
theorem witness_RegisterDivide :
    regOf 1 = some .x ∧ regOf 8 = some .pc ∧ base.readReg .x = 0 ∧ base.readReg .pc ≠ 0 := by decide
theorem witness_CompareRegisters : regOf 1 = some .x ∧ regOf 9 = some .sw := by decide
theorem witness_ShiftRegisters : regOf 0 = some .a ∧ regOf 9 = some .sw := by decide
theorem witness_MoveAndClear : regOf 5 = some .t ∧ regOf 8 = some .pc := by decide

/-- Each conditional jump taken and not taken, an addressing error. -/
theorem witness_Jumps :
    resolve failing base = none ∧ resolve top base = some atTop ∧ base.sw.cc = 0b00#2 ∧ base.sw.cc ≠ 0b01#2 ∧
      base.sw.cc ≠ 0b10#2 ∧ (base.setCC 1).sw.cc = 0b10#2 ∧ (base.setCC (-1)).sw.cc = 0b01#2 ∧
      resolve top (base.setCC 1) = some atTop := by decide
theorem witness_JumpToSubroutine : resolve failing base = none ∧ resolve top base = some atTop := by decide
theorem witness_ReturnFromSubroutine :
    resolve direct base = some atDirect ∧ base.trace = [] ∧
      resolve direct { base with trace := [0x001003] } = some atDirect ∧
      { base with trace := [0x001003] }.trace = 0x001003 :: [] := by decide

theorem witness_FloatArithmetic : OperandWitness .float := operandWitness .float
theorem witness_FloatDivide : OperandWitness .float := operandWitness .float
theorem witness_UnimplementedInstructions : base.sw.mode = .supervisor ∧ resolve direct base = some atDirect := by
  decide

/-- Device 0 (the byte at 0x300) present or absent; device 5 (immediate) present or absent; the read aborted. -/
theorem witness_ReadDevice :
    let some05 := { base with bus := { present := [0, 5], answers := [], log := [] } }
    base.sw.mode = .supervisor ∧ resolve direct hooked = some atDirect ∧ ReadAborts hooked atDirect .byte ∧
      resolve direct base = some atDirect ∧ ReadProceeds base atDirect .byte ∧
      byteValue base atDirect ∉ base.bus.present ∧ byteValue base atImmediate ∉ base.bus.present ∧
      byteValue some05 atDirect ∈ some05.bus.present ∧ ReadProceeds some05 atImmediate .byte ∧
      byteValue some05 atImmediate ∈ some05.bus.present := by
  unfold ReadAborts ReadProceeds
  decide
/-- The states of `witness_ReadDevice`, with a scripted answer that fails and one that does not. -/
theorem witness_WriteDevice :
    let fails := { base with bus := { present := [5], answers := [⟨true, 0, false⟩], log := [] } }
    let works := { base with bus := { present := [5], answers := [⟨false, 0, true⟩], log := [] } }
    resolve immediate fails = some atImmediate ∧ byteValue fails atImmediate ∈ fails.bus.present ∧
      ReadProceeds fails atImmediate .byte ∧ (fails.deviceAnswer (.write 5 0)).fails = true ∧
      byteValue works atImmediate ∈ works.bus.present ∧ ReadProceeds works atImmediate .byte ∧
      (works.deviceAnswer (.write 5 0)).fails = false ∧ fails.sw.mode = .supervisor ∧
      ReadAborts hooked atDirect .byte ∧ byteValue base atImmediate ∉ base.bus.present := by
  unfold ReadAborts ReadProceeds
  decide
/-- As for WD, and a device that is ready and one that is not. -/
theorem witness_TestDevice :
    let ready := { base with bus := { present := [5], answers := [⟨false, 0, true⟩], log := [] } }
    let busy := { base with bus := { present := [5], answers := [⟨false, 0, false⟩], log := [] } }
    resolve immediate ready = some atImmediate ∧ byteValue ready atImmediate ∈ ready.bus.present ∧
      ReadProceeds ready atImmediate .byte ∧ (ready.deviceAnswer (.test 5)).ready = true ∧
      byteValue busy atImmediate ∈ busy.bus.present ∧ (busy.deviceAnswer (.test 5)).ready = false ∧
      ready.sw.mode = .supervisor ∧ ReadAborts hooked atDirect .byte ∧
      byteValue base atImmediate ∉ base.bus.present := by
  unfold ReadAborts ReadProceeds
  decide

/-- A block at 0x300 read whole, and one whose last read, the float at 0x31E, is aborted. -/
theorem witness_LoadProcessorState :
    let aborts := { base with hook := [⟨0x0031E, .read, .float⟩] }
    resolve direct base = some atDirect ∧ base.sw.mode = .supervisor ∧ base.hook = [] ∧
      resolve direct aborts = some atDirect ∧ aborts.sw.mode = .supervisor ∧
      HookPoint.mk (addr20 atDirect.ea + 30) .read .float ∈ aborts.hook := by decide
theorem witness_LoadTimer :
    OperandWitness .word ∧ base.sw.mode = .supervisor ∧ hooked.sw.mode = .supervisor :=
  ⟨operandWitness .word, by decide, by decide⟩
theorem witness_SupervisorCall : enabledAll.sw.mask.getLsbD 3 = true ∧ base.sw.mask.getLsbD 3 = false := by decide

/-- Canonical memory; a byte just below and one just above the save slots. -/
theorem witness_InterruptEntry :
    Memory.wf base.mem = true ∧ (0x00105 : Addr).toNat < (0x00100 : Addr).toNat + 6 ∧
      (0x00190 : Addr).toNat + 36 ≤ (0x001B4 : Addr).toNat := by decide

/-- Each class pending alone, and nothing pending. -/
theorem witness_DrainPriority :
    (enabledAll.queue .svc 3).pend.svc = some 3 ∧
      ((base.queue .program 1).pend.svc = none ∧ (base.queue .program 1).pend.program = some 1) ∧
      ((base.queue .timer 0).pend.program = none ∧ (base.queue .timer 0).pend.timer = some 0) ∧
      ((base.queue .io 0xFF).pend.timer = none ∧ (base.queue .io 0xFF).pend.io = some 0xFF) ∧
      base.pend = Pending.empty := by decide

/-- The SVC work area staged with a supervisor status word; LPS 0x100 in the handler. -/
theorem witness_LpsUndoesInterruptEntry :
    let s := load 0x01002 [(0x00100, [0x00, 0x00, 0x01, 0x00, 0x02, 0x00])]
    let m : MemOperand := .f3 true true false false false 0x100
    Memory.wf s.mem = true ∧ s.sw.cc ≠ 0b11#2 ∧ (s.enterInterrupt .svc 3).sw.mode = .supervisor ∧
      resolve m (s.enterInterrupt .svc 3) = some ⟨.simple, 0x000100, 0x000100⟩ ∧
      addr20 0x000100 = areaBase .svc ∧ s.hook = [] := by decide

end Sys2Proof.Tests
end

section
/-! SUPPORT. What `exec` can do, said once for all 59 instructions: a property kept by the program conditions, the abort
and the noted read, and by each effect the instruction's class allows, is kept by the instruction. -/

namespace Sys2Proof.Machine

/-! ### The effects an instruction's class allows -/

/-- `P` survives every effect that instruction `i`, run from state `s`, can have: each kind of update is asked for only
where the class of `i` in Safety.lean, or the mode of `s`, allows it. -/
structure EffectsKeep (i : Instr) (s : State) (P : State → Prop) : Prop extends Robust P where
  regs : ∀ u g, (writesIndex i = false → g.x = u.regs.x) → P u → P { u with regs := g }
  trace : ∀ u l, P u → P { u with trace := l }
  pc : writesProgramCounter i = true → ∀ u a, P u → P (u.setPc a)
  cc : setsCondition i = true → ∀ u z, P u → P (u.setCC z)
  unpack : unpacksStatus i = true → ∀ u v, P u → P (u.setSW (unpackSW v))
  store : isStore i = true → ∀ u a w bytes, P u → P ((u.noteWrite a w).setMem (Memory.writeBytes u.mem a bytes))
  timer : s.sw.mode = .supervisor → ∀ u v, P u → P (u.setTimer v)
  device : s.sw.mode = .supervisor → ∀ u op, P u → P (u.deviceDone op)

theorem writesIndex_of_destSelector {i : Instr} (h : destSelector i = some 1#4) : writesIndex i = true := by
  cases i <;> simp_all [destSelector, writesIndex]

theorem writesProgramCounter_of_destSelector {i : Instr} (h : destSelector i = some 8#4) :
    writesProgramCounter i = true := by
  cases i <;> simp_all [destSelector, writesProgramCounter]

theorem unpacksStatus_of_destSelector {i : Instr} (h : destSelector i = some 9#4) : unpacksStatus i = true := by
  cases i <;> simp_all [destSelector, unpacksStatus]

namespace EffectsKeep

variable {i : Instr} {s u : State} {P : State → Prop}

/-- A write through the destination selector writes X, PC or SW only where the class of `i` says so. -/
theorem writeReg (h : EffectsKeep i s P) (hu : P u) {d : Nibble} {r : Reg} (hd : destSelector i = some d)
    (hr : regOf d = some r) (v : Word) : P (u.writeReg r v) := by
  refine State.writeReg_elim (fun g hx _ _ => h.regs u g (fun hi => hx ?_) hu) (fun hpc => ?_) (fun hsw => ?_)
  · rintro rfl
    obtain rfl := (regOf_eq_x_iff d).mp hr
    exact absurd (writesIndex_of_destSelector hd) (by simp [hi])
  · subst hpc
    obtain rfl := (regOf_eq_pc_iff d).mp hr
    exact h.pc (writesProgramCounter_of_destSelector hd) u _ hu
  · subst hsw
    obtain rfl := (regOf_eq_sw_iff d).mp hr
    exact h.unpack (unpacksStatus_of_destSelector hd) u _ hu

theorem combineRegs (h : EffectsKeep i s P) (hu : P u) {r1 r2 : Nibble} (hd : destSelector i = some r2)
    (op : Word → Word → Word) : P (u.combineRegs r1 r2 op) :=
  h.withRegs hu fun _ _ _ hw => h.writeReg hu hd hw _

theorem incrementAndCompare (h : EffectsKeep i s P) (hu : P u) (hx : writesIndex i = true)
    (hc : setsCondition i = true) (v : State → Word) : P (u.incrementAndCompare v) :=
  h.cc hc _ _ (h.regs u _ (fun hn => absurd hn (by simp [hx])) hu)

theorem storeWord (h : EffectsKeep i s P) (hu : P u) (hi : isStore i = true) (m : MemOperand) (v : Word) :
    P (u.storeWord m v) :=
  h.toRobust.store hu m .word (wordBytes v) fun a => h.store hi u a .word _ hu

theorem storeByte (h : EffectsKeep i s P) (hu : P u) (hi : isStore i = true) (m : MemOperand) (v : Byte) :
    P (u.storeByte m v) :=
  h.toRobust.store hu m .byte [v] fun a => h.store hi u a .byte _ hu

theorem storeFloat (h : EffectsKeep i s P) (hu : P u) (hi : isStore i = true) (m : MemOperand) (v : Float48) :
    P (u.storeFloat m v) :=
  h.toRobust.store hu m .float (floatBytes v) fun a => h.store hi u a .float _ hu

theorem popTrace (h : EffectsKeep i s P) (hu : P u) : P u.popTrace := by
  unfold State.popTrace
  split
  · exact h.report u _ hu
  · exact h.trace u _ hu

/-- LPS loads SW, PC and the registers (47_system_io.md R273). -/
theorem loadContext (h : EffectsKeep i s P) (hu : P u) (hx : writesIndex i = true)
    (hp : writesProgramCounter i = true) (hw : unpacksStatus i = true) (base : Addr) : P (u.loadContext base) :=
  h.regs _ _ (fun hn => absurd hn (by simp [hx])) (h.pc hp _ _ (h.unpack hw u _ hu))

theorem unimplemented (h : EffectsKeep i s P) (hu : P u) :
    P (u.supervisorOnly fun u => u.report .unimplemented) :=
  h.supervisorOnly hu fun _ => h.report u _ hu

end EffectsKeep

/-! ### The instructions -/

section
variable {s : State} {P : State → Prop}

theorem execRd_keeps {m : MemOperand} (h : EffectsKeep (.rd m) s P) (hs : P s) :
    ∃ t, exec (.rd m) s = .next t ∧ P t := by
  refine ⟨_, rfl, h.withDevice hs fun hm n u hu => ?_⟩
  have hdone := h.device hm u (.read n) hu
  split_ifs
  · exact h.report _ _ hdone
  · exact h.regs _ _ (fun _ => rfl) hdone
  · exact h.report _ _ hu

theorem execWd_keeps {m : MemOperand} (h : EffectsKeep (.wd m) s P) (hs : P s) :
    ∃ t, exec (.wd m) s = .next t ∧ P t := by
  refine ⟨_, rfl, h.withDevice hs fun hm n u hu => ?_⟩
  have hdone := h.device hm u (.write n (lowByte u.regs.a)) hu
  split_ifs
  · exact h.report _ _ hdone
  · exact hdone
  · exact h.report _ _ hu

theorem execTd_keeps {m : MemOperand} (h : EffectsKeep (.td m) s P) (hs : P s) :
    ∃ t, exec (.td m) s = .next t ∧ P t := by
  refine ⟨_, rfl, h.withDevice hs fun hm n u hu => ?_⟩
  have hdone := h.device hm u (.test n) hu
  split
  · split
    · exact h.report _ _ (h.cc rfl _ _ hdone)
    · exact h.cc rfl _ _ hdone
  · exact h.report _ _ (h.cc rfl _ _ hu)

theorem execDiv_keeps {m : MemOperand} (h : EffectsKeep (.div m) s P) (hs : P s) :
    ∃ t, exec (.div m) s = .next t ∧ P t := by
  refine ⟨_, rfl, h.withWord hs fun v u hu => ?_⟩
  split
  · exact h.report _ _ hu
  · exact h.regs _ _ (fun _ => rfl) hu

theorem execDivr_keeps {r1 r2 : Nibble} (h : EffectsKeep (.divr r1 r2) s P) (hs : P s) :
    ∃ t, exec (.divr r1 r2) s = .next t ∧ P t := by
  refine ⟨_, rfl, h.withRegs hs fun q w _ hw => ?_⟩
  split
  · exact h.raiseProgram hs _ _
  · exact h.writeReg hs rfl hw _

theorem execSvc_keeps {r1 r2 : Nibble} (h : EffectsKeep (.svc r1 r2) s P) (hs : P s) :
    ∃ t, exec (.svc r1 r2) s = .next t ∧ P t := by
  refine ⟨_, rfl, ?_⟩
  split
  · exact h.queue _ _ _ hs
  · exact h.report _ _ hs

/-- Every instruction answers a next state, and a property its effects keep holds of it (40_cycle.md R125, R131). -/
theorem exec_keeps {i : Instr} (h : EffectsKeep i s P) (hs : P s) : ∃ t, exec i s = .next t ∧ P t := by
  cases i with
  | lda m | ldl m | ldb m | lds m | ldt m | add m | sub m | mul m | and m | or m =>
    exact ⟨_, rfl, h.withWord hs fun _ u hu => h.regs u _ (fun _ => rfl) hu⟩
  | ldx m => exact ⟨_, rfl, h.withWord hs fun _ u hu => h.regs u _ nofun hu⟩
  | ldch m =>
    exact ⟨_, rfl, h.withOperand hs fun _ _ => h.byteOperand hs fun _ u hu => h.regs u _ (fun _ => rfl) hu⟩
  | ldf m | addf m | subf m | mulf m | divf m =>
    exact ⟨_, rfl, h.withFloat hs fun _ u hu => h.regs u _ (fun _ => rfl) hu⟩
  | sta m | stx m | stl m | stb m | sts m | stt m | stsw m => exact ⟨_, rfl, h.storeWord hs rfl m _⟩
  | stch m => exact ⟨_, rfl, h.storeByte hs rfl m _⟩
  | stf m => exact ⟨_, rfl, h.storeFloat hs rfl m _⟩
  | div m => exact execDiv_keeps h hs
  | comp m => exact ⟨_, rfl, h.withWord hs fun _ u hu => h.cc rfl u _ hu⟩
  | compf m => exact ⟨_, rfl, h.withFloat hs fun _ u hu => h.cc rfl u _ hu⟩
  | tix m => exact ⟨_, rfl, h.withWord hs fun _ _ hu => h.incrementAndCompare hu rfl rfl _⟩
  | j m | jeq m | jgt m | jlt m => exact ⟨_, rfl, h.jumpIf hs fun a => h.pc rfl s a hs⟩
  | jsub m =>
    exact ⟨_, rfl, h.withOperand hs fun _ _ =>
      h.trace _ _ (h.pc rfl _ _ (h.regs s _ (fun _ => rfl) hs))⟩
  | rsub m => exact ⟨_, rfl, h.withOperand hs fun _ _ => h.popTrace (h.pc rfl s _ hs)⟩
  | lps m =>
    exact ⟨_, rfl, h.withOperand hs fun _ _ => h.supervisorOnly hs fun _ =>
      h.restoreContext hs (h.loadContext hs rfl rfl rfl _)⟩
  | sti m =>
    exact ⟨_, rfl, h.withOperand hs fun _ _ => h.supervisorOnly hs fun hm =>
      h.wordOperand hs fun v u hu => h.timer hm u v hu⟩
  | rd m => exact execRd_keeps h hs
  | wd m => exact execWd_keeps h hs
  | td m => exact execTd_keeps h hs
  | ssk m => exact ⟨_, rfl, h.withOperand hs fun _ _ => h.unimplemented hs⟩
  | sio | hio | tio => exact ⟨_, rfl, h.unimplemented hs⟩
  | float | fix | norm => exact ⟨_, rfl, h.report s _ hs⟩
  | addr r1 r2 | subr r1 r2 | mulr r1 r2 => exact ⟨_, rfl, h.combineRegs hs rfl _⟩
  | rmo r1 r2 => exact ⟨_, rfl, h.withRegs hs fun _ _ _ hw => h.writeReg hs rfl hw _⟩
  | divr r1 r2 => exact execDivr_keeps h hs
  | shiftl r1 r2 | shiftr r1 r2 | clear r1 r2 =>
    exact ⟨_, rfl, h.withReg hs fun _ hr => h.writeReg hs rfl hr _⟩
  | compr r1 r2 => exact ⟨_, rfl, h.withRegs hs fun _ _ _ _ => h.cc rfl s _ hs⟩
  | tixr r1 r2 => exact ⟨_, rfl, h.withReg hs fun _ _ => h.incrementAndCompare hs rfl rfl _⟩
  | svc r1 r2 => exact execSvc_keeps h hs

/-- `exec_keeps` for the state an instruction is known to answer. -/
theorem exec_next_keeps {i : Instr} {t : State} (h : EffectsKeep i s P) (hs : P s) (ht : exec i s = .next t) : P t := by
  obtain ⟨u, hu, hP⟩ := exec_keeps h hs
  obtain rfl := Host.Outcome.next.inj (hu.symm.trans ht)
  exact hP

end

end Sys2Proof.Machine
end

section
/-! SUPPORT. The cycle around `exec`: fetch, end of the cycle, and what a step can be. -/

namespace Sys2Proof.Machine

/-- The fetch changes PC, the reports, the fetch span and the aborted flag (40_cycle.md R121). -/
theorem State.fetched_frame (s : State) (n : Nat) :
    ∃ a r, s.fetched n =
      { s with pc := a, reports := r, spans := { s.spans with fetch := some ⟨s.pc, n⟩ }, aborted := false } := by
  obtain ⟨a, r, h⟩ := s.advancePc_frame n
  exact ⟨a, r, by rw [State.fetched, h]⟩

/-- An aborted cycle ends at once; another one ticks, samples, drains and counts (20_memory.md R71, 40_cycle.md R120). -/
theorem State.endCycle_elim {P : State → Prop} {s : State} (ha : s.aborted = true → P s)
    (hf : s.aborted = false → P s.tick.sampleIo.drain.countCycle) : P s.endCycle := by
  unfold State.endCycle
  split
  · exact ha ‹_›
  · rename_i h
    exact hf (by simpa using h)

/-- A step ends the cycle of the decoded instruction, or of an illegal opcode (40_cycle.md R120, R123). -/
theorem step_cases {s t : State} (h : step s = .next t) :
    (∃ i rest u, decode s.fetchBytes = .ok (i, rest) ∧ exec i (s.fetched (instrLength i)) = .next u ∧
      t = u.endCycle) ∨
    ∃ e, decode s.fetchBytes = .error e ∧
      t = ((s.fetched 1).raiseProgram codeIllegalInstruction .illegalOpcode).endCycle := by
  unfold step at h
  split at h
  · rename_i i rest hd
    split at h
    · rename_i u hu
      exact .inl ⟨i, rest, u, hd, hu, (Host.Outcome.next.inj h).symm⟩
    · cases h
    · cases h
  · rename_i e hd
    exact .inr ⟨e, hd, (Host.Outcome.next.inj h).symm⟩

end Sys2Proof.Machine
end

section
/-! SUPPORT. The invariant of Safety.lean: it holds after reset and every step keeps it. -/

namespace Sys2Proof.Machine

/-- The invariant speaks of the memory, CC and the two data spans alone. -/
theorem GoodState.congr {s t : State} (h : GoodState s) (hm : t.mem = s.mem) (hc : t.sw.cc = s.sw.cc)
    (hr : t.spans.read = s.spans.read) (hw : t.spans.write = s.spans.write) : GoodState t := by
  rwa [GoodState, hm, hc, hr, hw]

theorem GoodState.robust : Robust GoodState where
  queue _ _ _ h := h.congr rfl rfl rfl rfl
  report _ _ h := h.congr rfl rfl rfl rfl
  abort _ h := h.congr rfl rfl rfl rfl
  noteRead _ _ _ h := ⟨h.1, h.2.1, by simp⟩

/-- Every effect keeps the invariant: a store keeps the memory canonical and clears the read span, `setCC` and
`unpackSW` give legal CC codes, and no other effect touches what the invariant speaks of. -/
theorem GoodState.effectsKeep (i : Instr) (s : State) : EffectsKeep i s GoodState where
  toRobust := GoodState.robust
  regs _ _ _ h := h.congr rfl rfl rfl rfl
  trace _ _ h := h.congr rfl rfl rfl rfl
  pc _ _ _ h := h.congr rfl rfl rfl rfl
  cc _ _ z h := ⟨h.1, ccOf_ne z, h.2.2⟩
  unpack _ _ v h := ⟨h.1, unpackSW_cc_ne v, h.2.2⟩
  store _ _ a _ bytes h := ⟨Memory.wf_writeBytes h.1 a bytes, h.2.1, by simp⟩
  timer _ _ _ h := h.congr rfl rfl rfl rfl
  device _ _ _ h := h.congr rfl rfl rfl rfl

theorem GoodState.fetched {s : State} (h : GoodState s) (n : Nat) : GoodState (s.fetched n) := by
  obtain ⟨a, r, hf⟩ := s.fetched_frame n
  rw [hf]
  exact h.congr rfl rfl rfl rfl

theorem GoodState.tick {s : State} (h : GoodState s) : GoodState s.tick :=
  State.tick_elim (fun _ _ => h.congr rfl rfl rfl rfl) (fun _ => h.congr rfl rfl rfl rfl)

theorem GoodState.sampleIo {s : State} (h : GoodState s) : GoodState s.sampleIo :=
  State.sampleIo_elim (fun _ => h) (fun _ _ _ => h.congr rfl rfl rfl rfl) (fun _ _ _ _ => h.congr rfl rfl rfl rfl)

/-- Interrupt entry saves into canonical memory and unpacks the new SW (60_exceptions.md R310). -/
theorem GoodState.enterInterrupt {s : State} (h : GoodState s) (c : IntClass) (code : Byte) :
    GoodState (s.enterInterrupt c code) := by
  refine ⟨?_, ?_, h.2.2⟩
  · rw [State.enterInterrupt_mem]
    exact State.wf_saveContext h.1 _
  · rw [State.enterInterrupt_sw]
    exact unpackSW_cc_ne _

theorem GoodState.drain {s : State} (h : GoodState s) : GoodState s.drain :=
  State.drain_elim (fun c code _ => h.enterInterrupt c code) (fun _ => h)

theorem GoodState.endCycle {s : State} (h : GoodState s) : GoodState s.endCycle :=
  State.endCycle_elim (fun _ => h) (fun _ => h.tick.sampleIo.drain.congr rfl rfl rfl rfl)

/-- Settles O3: the invariant passes through the fetch, every effect of every instruction, and the end of the cycle. -/
theorem stepKeepsInvariant : Obligations.StepKeepsInvariant := by
  intro s t hs ht
  obtain ⟨i, _, u, _, hu, rfl⟩ | ⟨_, _, rfl⟩ := step_cases ht
  · exact (exec_next_keeps (GoodState.effectsKeep i _) (hs.fetched _) hu).endCycle
  · exact (GoodState.robust.raiseProgram (hs.fetched 1) _ _).endCycle

/-- Settles O2: after reset no memory is listed, CC is equal and no span is set. -/
theorem resetSatisfiesInvariant : Obligations.ResetSatisfiesInvariant :=
  ⟨rfl, by decide, by decide⟩

/-- Settles O1: each clause is a field of the reset state or one the reset event leaves. -/
theorem resetEventState : Obligations.ResetEventState := by
  have hpacked : (packSW StatusWord.reset).toNat = 1 := by decide
  exact ⟨fun _ => ⟨rfl, rfl, rfl, hpacked, rfl, rfl, rfl, rfl, rfl, rfl, rfl, rfl, rfl⟩, rfl, rfl⟩

end Sys2Proof.Machine
end

section
/-! SUPPORT. Which instructions write the fields of SW. -/

namespace Sys2Proof.Machine

/-- A function of SW that `setCC` and `unpackSW` keep wherever the class of `i` has them is kept by every effect. -/
theorem EffectsKeep.of_statusWord {α : Type} {i : Instr} {s : State} (g : StatusWord → α) (a : α)
    (hcc : setsCondition i = true → ∀ w z, g { w with cc := ccOf z } = g w)
    (hsw : unpacksStatus i = true → ∀ w v, g w = a → g (unpackSW v) = a) :
    EffectsKeep i s (fun t => g t.sw = a) where
  toRobust := Robust.of_field (fun t => g t.sw) a (fun _ _ _ => rfl) (fun _ _ => rfl) (fun _ => rfl) (fun _ _ _ => rfl)
  regs _ _ _ h := h
  trace _ _ h := h
  pc _ _ _ h := h
  cc hi u z h := (hcc hi u.sw z).trans h
  unpack hi u v h := hsw hi u.sw v h
  store _ _ _ _ _ h := h
  timer _ _ _ h := h
  device _ _ _ h := h

/-- Settles O18: with the comparisons, TD and the ways to `unpackSW` left out, no effect touches CC. -/
theorem conditionCodeWriters : Obligations.ConditionCodeWriters := by
  intro i s t hc hu ht
  have hkeep : EffectsKeep i s (fun t => t.sw.cc = s.sw.cc) :=
    EffectsKeep.of_statusWord StatusWord.cc s.sw.cc (fun hi => absurd hi (by simp [hc]))
      (fun hi => absurd hi (by simp [hu]))
  exact exec_next_keeps hkeep rfl ht

/-- The fields of SW that `setCC` leaves (10_state.md R30, R34). -/
def StatusWord.besideCC (w : StatusWord) : Mode × Bool × BitVec 4 × BitVec 4 × BitVec 8 :=
  (w.mode, w.idle, w.id, w.mask, w.icode)

/-- Settles O19: `setCC` leaves these five fields, so with the ways to `unpackSW` left out no effect touches them. -/
theorem statusFieldWriters : Obligations.StatusFieldWriters := by
  intro i s t hu ht
  have hkeep : EffectsKeep i s (fun t => t.sw.besideCC = s.sw.besideCC) :=
    EffectsKeep.of_statusWord StatusWord.besideCC _ (fun _ _ _ => rfl) (fun hi => absurd hi (by simp [hu]))
  have hfields : t.sw.besideCC = s.sw.besideCC := exec_next_keeps hkeep rfl ht
  simpa only [StatusWord.besideCC, Prod.mk.injEq] using hfields

end Sys2Proof.Machine
end

section
/-! SUPPORT. The program counter: one increment, and the fetch of `n` bytes. -/

namespace Sys2Proof.Machine

theorem State.incPc_at_top {s : State} (h : s.pc.toNat = 0xFFFFF) :
    s.incPc = { s with pc := 0, reports := .pcOverflow :: s.reports } := by
  rw [State.incPc, if_pos (BitVec.eq_of_toNat_eq h)]
  rfl

theorem State.incPc_below_top {s : State} (h : s.pc.toNat ≠ 0xFFFFF) :
    s.incPc = { s with pc := BitVec.ofNat 20 (s.pc.toNat + 1) } := by
  rw [State.incPc, if_neg (fun he => h (by rw [he]; rfl)), BitVec.ofNat_add, BitVec.ofNat_toNat, BitVec.setWidth_eq]
  rfl

/-- PC after `n` increments, with one report when they cross the top of memory; that many bytes cross it once at most
(10_state.md R26). -/
theorem State.advancePc_eq (s : State) {n : Nat} (hn : n ≤ 2 ^ 20) :
    s.advancePc n = { s with
      pc := BitVec.ofNat 20 (s.pc.toNat + n)
      reports := if 2 ^ 20 ≤ s.pc.toNat + n then .pcOverflow :: s.reports else s.reports } := by
  induction n generalizing s with
  | zero =>
    have hpc := addr_toNat_lt s.pc
    rw [State.advancePc, if_neg (by omega), Nat.add_zero, BitVec.ofNat_toNat, BitVec.setWidth_eq]
  | succ n ih =>
    have hpc := addr_toNat_lt s.pc
    rw [State.advancePc, ih _ (by omega)]
    by_cases htop : s.pc.toNat = 0xFFFFF
    · have hsum : s.pc.toNat + (n + 1) = 2 ^ 20 + n := by omega
      have hzero : (0 : Addr).toNat + n = n := Nat.zero_add n
      have hwrap : BitVec.ofNat 20 (2 ^ 20 + n) = BitVec.ofNat 20 n := BitVec.eq_of_toNat_eq (by simp)
      rw [State.incPc_at_top htop, hsum, hwrap, if_pos (Nat.le_add_right _ _)]
      dsimp only
      rw [hzero, if_neg (by omega)]
    · have hnext : (BitVec.ofNat 20 (s.pc.toNat + 1)).toNat = s.pc.toNat + 1 := by
        rw [BitVec.toNat_ofNat, Nat.mod_eq_of_lt (by omega)]
      rw [State.incPc_below_top htop, hnext, Nat.add_assoc, Nat.add_comm 1 n]

/-- Settles O9: `advancePc_eq` for the bytes of one instruction. -/
theorem fetchAdvancesProgramCounter : Obligations.FetchAdvancesProgramCounter := by
  intro s n hn
  rw [State.fetched, State.advancePc_eq s (by omega)]

/-- Settles O10: the two branches of `incPC()`. -/
theorem incPcWrapsWithReport : Obligations.IncPcWrapsWithReport :=
  fun _ => ⟨State.incPc_at_top, State.incPc_below_top⟩

end Sys2Proof.Machine
end

section
/-! SUPPORT. The packed status word and the selectors. -/

namespace Sys2Proof.Machine

/-- Appending bit vectors weighs the upper one by the width of the lower one. -/
theorem toNat_append_eq_mul_add {m n : Nat} (x : BitVec m) (y : BitVec n) :
    (x ++ y).toNat = x.toNat * 2 ^ n + y.toNat := by
  rw [BitVec.toNat_append, ← Nat.shiftLeft_add_eq_or_of_lt y.isLt, Nat.shiftLeft_eq]

theorem Mode.bit_toNat (m : Mode) : m.bit.toNat = if m = .supervisor then 1 else 0 := by
  cases m <;> rfl

/-- Settles O16: the weight of a field is the total width of the fields below it. -/
theorem packedStatusWord : Obligations.PackedStatusWord := by
  intro w
  have hbit := w.mode.bit_toNat
  simp only [packSW, toNat_append_eq_mul_add, BitVec.toNat_ofBool, hbit, BitVec.toNat_ofNat]
  omega

/-! ### Fields of a packed word -/

/-- A field read at bit `k` of a word is the word divided by the weight of the bits below it. -/
theorem extractLsb'_eq_of_div_mod {n k : Nat} {v : Word} {field : BitVec n}
    (h : v.toNat / 2 ^ k % 2 ^ n = field.toNat) : v.extractLsb' k n = field :=
  BitVec.eq_of_toNat_eq (by rw [BitVec.extractLsb'_toNat, Nat.shiftRight_eq_div_pow, h])

theorem getLsbD_eq_of_div_mod {k : Nat} {v : Word} {b : Bool} (h : v.toNat / 2 ^ k % 2 = b.toNat) :
    v.getLsbD k = b := by
  rw [BitVec.getLsbD, Nat.testBit_eq_decide_div_mod_eq, h]
  cases b <;> rfl

/-- Each field of a status word stands in the packed word where `unpackSW` looks for it (10_state.md R32, R33). -/
theorem packSW_fields (w : StatusWord) :
    (packSW w).getLsbD 0 = decide (w.mode = .supervisor) ∧ (packSW w).getLsbD 1 = w.idle ∧
    (packSW w).extractLsb' 2 4 = w.id ∧ (packSW w).extractLsb' 6 2 = w.cc ∧
    (packSW w).extractLsb' 8 4 = w.mask ∧ (packSW w).extractLsb' 16 8 = w.icode := by
  have hsum := packedStatusWord w
  have hmode : (decide (w.mode = .supervisor)).toNat = if w.mode = .supervisor then 1 else 0 := by
    split <;> simp [*]
  have hmode_lt := (decide (w.mode = .supervisor)).toNat_lt
  have hidle := w.idle.toNat_lt
  have hid := w.id.isLt
  have hcc := w.cc.isLt
  have hmask := w.mask.isLt
  have hicode := w.icode.isLt
  rw [← hmode] at hsum
  refine ⟨getLsbD_eq_of_div_mod ?_, getLsbD_eq_of_div_mod ?_, extractLsb'_eq_of_div_mod ?_,
    extractLsb'_eq_of_div_mod ?_, extractLsb'_eq_of_div_mod ?_, extractLsb'_eq_of_div_mod ?_⟩ <;>
  omega

theorem unpackSW_packSW {w : StatusWord} (hlegal : w.cc ≠ 0b11#2) : unpackSW (packSW w) = w := by
  obtain ⟨hmode, hidle, hid, hcc, hmask, hicode⟩ := packSW_fields w
  rw [unpackSW, hmode, hidle, hid, hcc, hmask, hicode, if_neg hlegal]
  cases w with
  | mk mode => cases mode <;> rfl

theorem Mode.bit_of_getLsbD (b : Bool) : (if b then Mode.supervisor else Mode.user).bit = BitVec.ofBool b := by
  cases b <;> rfl

/-- The bits of a packed unpacked word: those of the word outside bits 15:12 and the CC field. -/
theorem getLsbD_packSW_unpackSW (v : Word) (k : Nat) (hk : k < 24) :
    (packSW (unpackSW v)).getLsbD k =
      if 12 ≤ k ∧ k < 16 then false
      else if 6 ≤ k ∧ k < 8 then (unpackSW v).cc.getLsbD (k - 6) else v.getLsbD k := by
  simp only [packSW, unpackSW, Mode.bit_of_getLsbD, BitVec.getLsbD_append]
  interval_cases k <;> simp

/-- Settles O17: one way field by field, the other way bit by bit. -/
theorem statusWordRoundTrip : Obligations.StatusWordRoundTrip := by
  refine ⟨fun w hlegal => unpackSW_packSW hlegal, fun v => ?_⟩
  split
  · next hcc =>
    have hequal : (unpackSW v).cc = 0b00#2 := if_pos hcc
    refine BitVec.eq_of_getLsbD_eq fun k hk => ?_
    rw [getLsbD_packSW_unpackSW v k hk, hequal]
    interval_cases k <;> simp
  · next hcc =>
    have hkept : (unpackSW v).cc = v.extractLsb' 6 2 := if_neg hcc
    refine BitVec.eq_of_getLsbD_eq fun k hk => ?_
    rw [getLsbD_packSW_unpackSW v k hk, hkept]
    interval_cases k <;> simp

/-- Settles O40: the table of selectors by evaluation, each read and write by its branch. -/
theorem selectorAccess : Obligations.SelectorAccess := by
  refine ⟨rfl, fun s v => ⟨rfl, rfl, rfl, rfl, rfl, rfl, rfl, ?_, rfl, rfl, rfl, rfl, rfl, rfl, rfl, rfl, ?_, rfl⟩⟩
  · rw [BitVec.ofNat_toNat]
    rfl
  · rw [BitVec.ofNat_toNat]
    rfl

end Sys2Proof.Machine
end

section
/-! SUPPORT. Memory: which instructions write it, what an aborted cycle leaves, and the raw accesses byte by byte. -/

namespace Sys2Proof.Machine

/-! ### The writers of memory -/

/-- The only effect that touches memory is the one a store is allowed (20_memory.md R64). -/
theorem EffectsKeep.of_memory {i : Instr} (s : State) (hi : isStore i = false) :
    EffectsKeep i s (fun t => t.mem = s.mem) where
  toRobust := Robust.of_field State.mem s.mem (fun _ _ _ => rfl) (fun _ _ => rfl) (fun _ => rfl) (fun _ _ _ => rfl)
  regs _ _ _ h := h
  trace _ _ h := h
  pc _ _ _ h := h
  cc _ _ _ h := h
  unpack _ _ _ h := h
  store hstore := absurd hstore (by simp [hi])
  timer _ _ _ h := h
  device _ _ _ h := h

/-- Settles O22: with the nine stores left out no effect touches memory. -/
theorem onlyStoresWriteMemory : Obligations.OnlyStoresWriteMemory :=
  fun _ s _ hi ht => exec_next_keeps (EffectsKeep.of_memory s hi) rfl ht

/-! ### The aborted cycle

An abort comes before every effect of its instruction: `hookedRead` and `hookedWrite` test the hook first, and no effect
touches the flag. So an outcome that is aborted is the state the instruction began in, with the flag set. -/

/-- Of an instruction begun in `s`: if `t` is aborted, nothing of the instruction was applied (20_memory.md R71). -/
def CleanAbort (s t : State) : Prop := t.aborted = true → t = s.abortCycle

theorem State.raiseProgram_aborted (s : State) (code : Byte) (kind : Report) :
    (s.raiseProgram code kind).aborted = s.aborted :=
  State.raiseProgram_elim (P := fun t => t.aborted = s.aborted) (fun _ => rfl) (fun _ => rfl)

theorem State.writeReg_aborted (s : State) (r : Reg) (v : Word) : (s.writeReg r v).aborted = s.aborted :=
  State.writeReg_elim (P := fun t => t.aborted = s.aborted) (fun _ _ _ _ => rfl) (fun _ => rfl) (fun _ => rfl)

theorem State.popTrace_aborted (s : State) : s.popTrace.aborted = s.aborted := by
  unfold State.popTrace
  split <;> rfl

namespace CleanAbort

section
variable {s t : State}

theorem abortCycle (s : State) : CleanAbort s s.abortCycle := fun _ => rfl

theorem of_running (ht : t.aborted = false) : CleanAbort s t := fun h => absurd h (by simp [ht])

theorem raiseProgram (hs : s.aborted = false) (code : Byte) (kind : Report) :
    CleanAbort s (s.raiseProgram code kind) :=
  of_running ((s.raiseProgram_aborted code kind).trans hs)

theorem supervisorOnly (hs : s.aborted = false) {k : State → State} (hk : CleanAbort s (k s)) :
    CleanAbort s (s.supervisorOnly k) :=
  State.supervisorOnly_elim (fun _ => raiseProgram hs _ _) (fun _ => hk)

theorem withReg (hs : s.aborted = false) {i : Nibble} {k : Reg → State} (hk : ∀ r, (k r).aborted = s.aborted) :
    CleanAbort s (s.withReg i k) :=
  State.withReg_elim (fun _ => raiseProgram hs _ _) (fun r _ => of_running ((hk r).trans hs))

theorem withRegs (hs : s.aborted = false) {r1 r2 : Nibble} {k : Reg → Reg → State}
    (hk : ∀ q w, (k q w).aborted = s.aborted) : CleanAbort s (s.withRegs r1 r2 k) :=
  State.withRegs_elim (fun _ => raiseProgram hs _ _) (fun q w _ _ => of_running ((hk q w).trans hs))

theorem withOperand (hs : s.aborted = false) {m : MemOperand} {k : Resolved → State}
    (hk : ∀ r, CleanAbort s (k r)) : CleanAbort s (s.withOperand m k) :=
  State.withOperand_elim (fun _ => raiseProgram hs _ _) (fun r _ => hk r)

theorem wordOperand (hs : s.aborted = false) {r : Resolved} {k : Word → State → State}
    (hk : ∀ v u, (k v u).aborted = u.aborted) : CleanAbort s (s.wordOperand r k) :=
  State.wordOperand_elim (fun _ => of_running ((hk _ _).trans hs)) (fun _ _ => abortCycle s)
    (fun _ _ => of_running ((hk _ _).trans hs))

theorem byteOperand (hs : s.aborted = false) {r : Resolved} {k : Byte → State → State}
    (hk : ∀ v u, (k v u).aborted = u.aborted) : CleanAbort s (s.byteOperand r k) :=
  State.byteOperand_elim (fun _ => of_running ((hk _ _).trans hs)) (fun _ _ => abortCycle s)
    (fun _ _ => of_running ((hk _ _).trans hs))

theorem floatOperand (hs : s.aborted = false) {r : Resolved} {k : Float48 → State → State}
    (hk : ∀ v u, (k v u).aborted = u.aborted) : CleanAbort s (s.floatOperand r k) :=
  State.floatOperand_elim (fun _ => of_running ((hk _ _).trans hs)) (fun _ _ => abortCycle s)
    (fun _ _ => of_running ((hk _ _).trans hs))

theorem withWord (hs : s.aborted = false) {m : MemOperand} {k : Word → State → State}
    (hk : ∀ v u, (k v u).aborted = u.aborted) : CleanAbort s (s.withWord m k) :=
  withOperand hs fun _ => wordOperand hs hk

theorem withFloat (hs : s.aborted = false) {m : MemOperand} {k : Float48 → State → State}
    (hk : ∀ v u, (k v u).aborted = u.aborted) : CleanAbort s (s.withFloat m k) :=
  withOperand hs fun _ => floatOperand hs hk

theorem withDevice (hs : s.aborted = false) {m : MemOperand} {k : Byte → State → State}
    (hk : ∀ v u, (k v u).aborted = u.aborted) : CleanAbort s (s.withDevice m k) :=
  withOperand hs fun _ => supervisorOnly hs (byteOperand hs hk)

/-- A hooked write aborts before it stores (20_memory.md R70). -/
theorem hookedWrite (hs : s.aborted = false) (a : Addr) (w : AccessWidth) (m : Memory) :
    CleanAbort s (s.hookedWrite a w m) :=
  State.hookedWrite_elim (fun _ => abortCycle s) (fun _ => of_running hs)

theorem jumpIf (hs : s.aborted = false) (m : MemOperand) (taken : Bool) : CleanAbort s (s.jumpIf m taken) :=
  State.jumpIf_elim (fun _ => raiseProgram hs _ _) (fun _ _ _ => of_running hs) (fun _ => of_running hs)

/-- LPS aborts before it restores anything (47_system_io.md R273). -/
theorem restoreContext (hs : s.aborted = false) (base : Addr) : CleanAbort s (s.restoreContext base) :=
  State.restoreContext_elim (abortCycle s) (of_running hs)

end

end CleanAbort

open CleanAbort in
/-- An instruction begun with the flag clear answers either a running state or the one it began in, flagged. -/
theorem exec_cleanAbort (i : Instr) {s : State} (hs : s.aborted = false) :
    ∃ t, exec i s = .next t ∧ CleanAbort s t := by
  cases i with
  | lda m | ldx m | ldl m | ldb m | lds m | ldt m | add m | sub m | mul m | and m | or m | comp m | tix m =>
    exact ⟨_, rfl, withWord hs fun _ _ => rfl⟩
  | div m => exact ⟨_, rfl, withWord hs fun _ _ => by split <;> rfl⟩
  | ldch m => exact ⟨_, rfl, withOperand hs fun _ => byteOperand hs fun _ _ => rfl⟩
  | ldf m | addf m | subf m | mulf m | divf m | compf m => exact ⟨_, rfl, withFloat hs fun _ _ => rfl⟩
  | sta m | stx m | stl m | stb m | sts m | stt m | stsw m | stch m | stf m =>
    exact ⟨_, rfl, withOperand hs fun _ => hookedWrite hs _ _ _⟩
  | j m | jeq m | jgt m | jlt m => exact ⟨_, rfl, jumpIf hs m _⟩
  | jsub m => exact ⟨_, rfl, withOperand hs fun _ => of_running hs⟩
  | rsub m => exact ⟨_, rfl, withOperand hs fun _ => of_running ((State.popTrace_aborted _).trans hs)⟩
  | lps m => exact ⟨_, rfl, withOperand hs fun _ => supervisorOnly hs (restoreContext hs _)⟩
  | sti m => exact ⟨_, rfl, withOperand hs fun _ => supervisorOnly hs (wordOperand hs fun _ _ => rfl)⟩
  | rd m | wd m => exact ⟨_, rfl, withDevice hs fun _ _ => by split_ifs <;> rfl⟩
  | td m => exact ⟨_, rfl, withDevice hs fun _ _ => by split_ifs <;> rfl⟩
  | ssk m => exact ⟨_, rfl, withOperand hs fun _ => supervisorOnly hs (of_running hs)⟩
  | sio | hio | tio => exact ⟨_, rfl, supervisorOnly hs (of_running hs)⟩
  | float | fix | norm => exact ⟨_, rfl, of_running hs⟩
  | addr r1 r2 | subr r1 r2 | mulr r1 r2 | rmo r1 r2 =>
    exact ⟨_, rfl, withRegs hs fun _ _ => s.writeReg_aborted _ _⟩
  | divr r1 r2 =>
    refine ⟨_, rfl, withRegs hs fun _ _ => ?_⟩
    split
    · exact s.raiseProgram_aborted _ _
    · exact s.writeReg_aborted _ _
  | compr r1 r2 => exact ⟨_, rfl, withRegs hs fun _ _ => rfl⟩
  | shiftl r1 r2 | shiftr r1 r2 | clear r1 r2 => exact ⟨_, rfl, withReg hs fun _ => s.writeReg_aborted _ _⟩
  | tixr r1 r2 => exact ⟨_, rfl, withReg hs fun _ => rfl⟩
  | svc r1 r2 => exact ⟨_, rfl, by split <;> exact of_running hs⟩

/-- The stages after the effect leave the aborted flag (40_cycle.md R120). -/
theorem State.finishCycle_aborted (s : State) : s.finishCycle.aborted = s.aborted := by
  have htick : s.tick.aborted = s.aborted :=
    State.tick_elim (P := fun t => t.aborted = s.aborted) (fun _ _ => rfl) (fun _ => rfl)
  have hsample : s.tick.sampleIo.aborted = s.tick.aborted :=
    State.sampleIo_elim (P := fun t => t.aborted = s.tick.aborted) (fun _ => rfl) (fun _ _ _ => rfl)
      (fun _ _ _ _ => rfl)
  have hdrain : s.tick.sampleIo.drain.aborted = s.tick.sampleIo.aborted :=
    State.drain_elim (P := fun t => t.aborted = s.tick.sampleIo.aborted) (fun _ _ _ => rfl) (fun _ => rfl)
  exact hdrain.trans (hsample.trans htick)

/-- A cycle that ends aborted ended where the hook left it (20_memory.md R71). -/
theorem State.aborted_of_endCycle {s : State} (h : s.endCycle.aborted = true) :
    s.aborted = true ∧ s.endCycle = s := by
  unfold State.endCycle at h ⊢
  split at h
  · next ha => exact ⟨ha, if_pos ha⟩
  · next hn => exact absurd (s.finishCycle_aborted.symm.trans h) hn

/-- Settles O13: an illegal opcode makes no hooked access, and an instruction aborts cleanly from the fetched state. -/
theorem abortedCycleAppliesNothing : Obligations.AbortedCycleAppliesNothing := by
  intro s t hstep hab
  obtain ⟨i, rest, u, hd, hu, rfl⟩ | ⟨e, _, rfl⟩ := step_cases hstep
  · obtain ⟨hua, hend⟩ := State.aborted_of_endCycle hab
    obtain ⟨v, hv, hclean⟩ := exec_cleanAbort i (s := s.fetched (instrLength i)) rfl
    obtain rfl := Host.Outcome.next.inj (hv.symm.trans hu)
    exact ⟨i, rest, hd, hend.trans (hclean hua)⟩
  · have hraised := (State.aborted_of_endCycle hab).1
    rw [State.raiseProgram_aborted] at hraised
    cases hraised

/-! ### The raw accesses -/

/-- The address of a byte of an access, reduced on its own (20_memory.md R66). -/
theorem addr_ofNat_toNat_add (a : Addr) (k : Nat) : BitVec.ofNat 20 (a.toNat + k) = a + BitVec.ofNat 20 k := by
  rw [BitVec.ofNat_add, BitVec.ofNat_toNat, BitVec.setWidth_eq]

/-- Eight bits of a number read at bit `k`. -/
theorem extractLsb'_eq_ofNat_div {n : Nat} (v : BitVec n) (k : Nat) :
    v.extractLsb' k 8 = BitVec.ofNat 8 (v.toNat / 2 ^ k) :=
  BitVec.eq_of_toNat_eq (by rw [BitVec.extractLsb'_toNat, Nat.shiftRight_eq_div_pow, BitVec.toNat_ofNat])

/-- The bytes the model stores are the quotients by the powers of 256 (20_memory.md R62). -/
theorem wordBytes_eq_bytesOfWord (v : Word) : wordBytes v = bytesOfWord v := by
  simp only [wordBytes, bytesOfWord, extractLsb'_eq_ofNat_div, Nat.reducePow, Nat.div_one]

theorem floatBytes_eq_bytesOfFloat (v : Float48) : floatBytes v = bytesOfFloat v := by
  simp only [floatBytes, bytesOfFloat, extractLsb'_eq_ofNat_div, Nat.reducePow, Nat.div_one]

/-- Joining bytes weighs each by the width of the bytes after it (20_memory.md R62). -/
theorem Memory.readWord_eq_wordAt (m : Memory) (a : Addr) : Memory.readWord m a = wordAt m a := by
  refine BitVec.eq_of_toNat_eq ?_
  have h0 := (Memory.byte m a).isLt
  have h1 := (Memory.byte m (a + 1#20)).isLt
  have h2 := (Memory.byte m (a + 2#20)).isLt
  simp only [Memory.readWord, wordAt, toNat_append_eq_mul_add, BitVec.toNat_ofNat]
  omega

theorem Memory.readFloat_eq_floatAt (m : Memory) (a : Addr) : Memory.readFloat m a = floatAt m a := by
  refine BitVec.eq_of_toNat_eq ?_
  have h0 := (Memory.byte m a).isLt
  have h1 := (Memory.byte m (a + 1#20)).isLt
  have h2 := (Memory.byte m (a + 2#20)).isLt
  have h3 := (Memory.byte m (a + 3#20)).isLt
  have h4 := (Memory.byte m (a + 4#20)).isLt
  have h5 := (Memory.byte m (a + 5#20)).isLt
  simp only [Memory.readFloat, floatAt, toNat_append_eq_mul_add, BitVec.toNat_ofNat]
  omega

/-- A store of fewer bytes than the address space has: each byte at its reduced address, every other byte kept
(20_memory.md R66, R68). -/
theorem Memory.writeBytes_spec (m : Memory) (a : Addr) (bs : List Byte) (hlen : bs.length ≤ 2 ^ 20) :
    (∀ k (h : k < bs.length), Memory.byte (Memory.writeBytes m a bs) (BitVec.ofNat 20 (a.toNat + k)) = bs[k]) ∧
    ∀ x : Addr, (∀ k, k < bs.length → x ≠ BitVec.ofNat 20 (a.toNat + k)) →
      Memory.byte (Memory.writeBytes m a bs) x = Memory.byte m x := by
  simp only [addr_ofNat_toNat_add]
  exact ⟨Memory.byte_writeBytes_inside m a bs hlen, fun x hx => Memory.byte_writeBytes_outside m a x bs hx⟩

/-- Settles O25: the reads weigh their bytes, the writes are `writeBytes` of the bytes of the value. -/
theorem rawAccessBytes : Obligations.RawAccessBytes := by
  intro m a _
  refine ⟨m.readWord_eq_wordAt a, m.readFloat_eq_floatAt a, fun v x => m.byte_setByte a v x, fun v => ?_, fun v => ?_⟩
  · rw [Memory.writeWord, wordBytes_eq_bytesOfWord]
    exact m.writeBytes_spec a (bytesOfWord v) (by decide : (3 : Nat) ≤ 2 ^ 20)
  · rw [Memory.writeFloat, floatBytes_eq_bytesOfFloat]
    exact m.writeBytes_spec a (bytesOfFloat v) (by decide : (6 : Nat) ≤ 2 ^ 20)

/-! ### Reading and writing back -/

/-- The bytes from address `a` on, `n` of them (20_memory.md R61). -/
def Memory.bytesFrom (m : Memory) (a : Addr) (n : Nat) : List Byte :=
  (List.range n).map fun k => Memory.byte m (a + BitVec.ofNat 20 k)

@[simp] theorem Memory.length_bytesFrom (m : Memory) (a : Addr) (n : Nat) : (m.bytesFrom a n).length = n := by
  simp [Memory.bytesFrom]

@[simp] theorem Memory.getElem_bytesFrom (m : Memory) (a : Addr) {n k : Nat} (h : k < (m.bytesFrom a n).length) :
    (m.bytesFrom a n)[k] = Memory.byte m (a + BitVec.ofNat 20 k) := by
  simp [Memory.bytesFrom]

/-- Storing the bytes that memory holds changes none. -/
theorem Memory.byte_writeBytes_bytesFrom (m : Memory) (a x : Addr) {n : Nat} (hn : n ≤ 2 ^ 20) :
    Memory.byte (Memory.writeBytes m a (m.bytesFrom a n)) x = Memory.byte m x := by
  by_cases hx : ∃ k < n, x = a + BitVec.ofNat 20 k
  · obtain ⟨k, hk, rfl⟩ := hx
    rw [Memory.byte_writeBytes_inside m a _ (by simpa using hn) k (by simpa using hk), Memory.getElem_bytesFrom]
  · refine Memory.byte_writeBytes_outside m a x _ fun k hk heq => hx ⟨k, ?_, heq⟩
    simpa using hk

theorem Memory.bytesFrom_three (m : Memory) (a : Addr) :
    m.bytesFrom a 3 = [Memory.byte m a, Memory.byte m (a + 1#20), Memory.byte m (a + 2#20)] := by
  simp [Memory.bytesFrom, List.range_succ]

theorem Memory.bytesFrom_six (m : Memory) (a : Addr) :
    m.bytesFrom a 6 = [Memory.byte m a, Memory.byte m (a + 1#20), Memory.byte m (a + 2#20),
      Memory.byte m (a + 3#20), Memory.byte m (a + 4#20), Memory.byte m (a + 5#20)] := by
  simp [Memory.bytesFrom, List.range_succ]

theorem ofNat_eq_byte_of_mod {n : Nat} {b : Byte} (h : n % 2 ^ 8 = b.toNat) : BitVec.ofNat 8 n = b :=
  BitVec.eq_of_toNat_eq (by rw [BitVec.toNat_ofNat, h])

/-- Taking apart the word just read gives the bytes it was joined from (20_memory.md R62). -/
theorem Memory.wordBytes_readWord (m : Memory) (a : Addr) : wordBytes (Memory.readWord m a) = m.bytesFrom a 3 := by
  have h0 := (Memory.byte m a).isLt
  have h1 := (Memory.byte m (a + 1#20)).isLt
  have h2 := (Memory.byte m (a + 2#20)).isLt
  rw [wordBytes_eq_bytesOfWord, Memory.readWord_eq_wordAt, bytesOfWord, wordAt, BitVec.toNat_ofNat,
    Memory.bytesFrom_three]
  simp only [List.cons.injEq, and_true]
  refine ⟨ofNat_eq_byte_of_mod ?_, ofNat_eq_byte_of_mod ?_, ofNat_eq_byte_of_mod ?_⟩ <;> omega

/-- Taking apart the float just read gives the bytes it was joined from (20_memory.md R63). -/
theorem Memory.floatBytes_readFloat (m : Memory) (a : Addr) : floatBytes (Memory.readFloat m a) = m.bytesFrom a 6 := by
  have h0 := (Memory.byte m a).isLt
  have h1 := (Memory.byte m (a + 1#20)).isLt
  have h2 := (Memory.byte m (a + 2#20)).isLt
  have h3 := (Memory.byte m (a + 3#20)).isLt
  have h4 := (Memory.byte m (a + 4#20)).isLt
  have h5 := (Memory.byte m (a + 5#20)).isLt
  rw [floatBytes_eq_bytesOfFloat, Memory.readFloat_eq_floatAt, bytesOfFloat, floatAt, BitVec.toNat_ofNat,
    Memory.bytesFrom_six]
  simp only [List.cons.injEq, and_true]
  refine ⟨ofNat_eq_byte_of_mod ?_, ofNat_eq_byte_of_mod ?_, ofNat_eq_byte_of_mod ?_, ofNat_eq_byte_of_mod ?_,
    ofNat_eq_byte_of_mod ?_, ofNat_eq_byte_of_mod ?_⟩ <;> omega

/-- Settles O26: writing back stores the bytes memory holds; reading back joins the bytes of the value. -/
theorem readAndWriteBack : Obligations.ReadAndWriteBack := by
  intro m a _
  refine ⟨fun x => ?_, fun x => ?_, fun v => ?_, fun v => ?_⟩
  · rw [Memory.writeWord, Memory.wordBytes_readWord]
    exact m.byte_writeBytes_bytesFrom a x (by decide)
  · rw [Memory.writeFloat, Memory.floatBytes_readFloat]
    exact m.byte_writeBytes_bytesFrom a x (by decide)
  · have h := m.readWord_writeBytes a (wordBytes v) (by decide : (3 : Nat) ≤ 2 ^ 20) 0 v (by decide : (2 : Nat) < 3) rfl
    rwa [BitVec.add_zero] at h
  · have h := m.readFloat_writeBytes a (floatBytes v) (by decide : (6 : Nat) ≤ 2 ^ 20) 0 v (by decide : (5 : Nat) < 6) rfl
    rwa [BitVec.add_zero] at h

end Sys2Proof.Machine
end

section
/-! SUPPORT. Encoding: the fields of the first two bytes taken apart and joined, the decoder's answers said once over the
three tables of spec/30_encoding.md R99, which first bytes each table lists, and the two round trips. -/

namespace Sys2Proof

/-! ### The fields of a byte -/

theorem ofBool_getLsbD {w : Nat} (x : BitVec w) (k : Nat) : BitVec.ofBool (x.getLsbD k) = x.extractLsb' k 1 := by
  ext i hi
  obtain rfl : i = 0 := by omega
  simp

/-- The mask of R97 keeps the six opcode bits of a format-3/4 first byte. -/
theorem and_opcodeMask (b : Byte) : b &&& 0xFC#8 = b.extractLsb' 2 6 ++ 0#2 := by
  refine BitVec.eq_of_getLsbD_eq fun i hi => ?_
  rw [BitVec.getLsbD_append, BitVec.getLsbD_and]
  interval_cases i <;> simp

theorem extractLsb'_and_opcodeMask (b : Byte) : (b &&& 0xFC#8).extractLsb' 2 6 = b.extractLsb' 2 6 := by
  rw [and_opcodeMask, BitVec.extractLsb'_append_eq_left]

/-- The first byte of formats 3 and 4 is its opcode bits, n and i (R93, R94). -/
theorem firstByte_join (b : Byte) :
    b.extractLsb' 2 6 ++ BitVec.ofBool (b.getLsbD 1) ++ BitVec.ofBool (b.getLsbD 0) = b := by
  simp only [ofBool_getLsbD]
  iterate 2 rw [BitVec.extractLsb'_append_extractLsb'_eq_extractLsb' (by decide)]
  exact BitVec.extractLsb'_eq_self

theorem firstByte_fields (o : BitVec 6) (n i : Bool) :
    let b0 : Byte := o ++ BitVec.ofBool n ++ BitVec.ofBool i
    b0.extractLsb' 2 6 = o ∧ b0.getLsbD 1 = n ∧ b0.getLsbD 0 = i := by
  refine ⟨?_, ?_, ?_⟩
  · rw [BitVec.extractLsb'_append_eq_of_le (by decide), BitVec.extractLsb'_append_eq_left]
  · iterate 2 rw [BitVec.getLsbD_append]
    simp
  · rw [BitVec.getLsbD_append]
    simp

/-- In the SIC layout n and i are 0 and the second byte is x and seven address bits (R95). -/
theorem sicBytes_fields (o : BitVec 6) (x : Bool) (a : BitVec 7) :
    let b0 : Byte := o ++ 0#2
    let b1 : Byte := BitVec.ofBool x ++ a
    b0.getLsbD 1 = false ∧ b0.getLsbD 0 = false ∧ b1.getLsbD 7 = x ∧ b1.extractLsb' 0 7 = a := by
  refine ⟨?_, ?_, ?_, BitVec.extractLsb'_append_eq_right⟩ <;> rw [BitVec.getLsbD_append] <;> simp

theorem sicSecondByte_join (b : Byte) : BitVec.ofBool (b.getLsbD 7) ++ b.extractLsb' 0 7 = b := by
  rw [ofBool_getLsbD, BitVec.extractLsb'_append_extractLsb'_eq_extractLsb' (by decide)]
  exact BitVec.extractLsb'_eq_self

/-- The second byte of formats 3 and 4 is x, b, p, e and four high bits of the displacement or address (R93, R94). -/
theorem secondByte_join (b : Byte) :
    BitVec.ofBool (b.getLsbD 7) ++ BitVec.ofBool (b.getLsbD 6) ++ BitVec.ofBool (b.getLsbD 5) ++
      BitVec.ofBool (b.getLsbD 4) ++ b.extractLsb' 0 4 = b := by
  simp only [ofBool_getLsbD]
  iterate 4 rw [BitVec.extractLsb'_append_extractLsb'_eq_extractLsb' (by decide)]
  exact BitVec.extractLsb'_eq_self

theorem secondByte_fields (x b p e : Bool) (d : BitVec 4) :
    let b1 : Byte := BitVec.ofBool x ++ BitVec.ofBool b ++ BitVec.ofBool p ++ BitVec.ofBool e ++ d
    b1.getLsbD 7 = x ∧ b1.getLsbD 6 = b ∧ b1.getLsbD 5 = p ∧ b1.getLsbD 4 = e ∧ b1.extractLsb' 0 4 = d := by
  refine ⟨?_, ?_, ?_, ?_, BitVec.extractLsb'_append_eq_right⟩ <;>
    (iterate 4 rw [BitVec.getLsbD_append]) <;> simp

theorem formatFourAddress_join (a : BitVec 20) :
    a.extractLsb' 16 4 ++ a.extractLsb' 8 8 ++ a.extractLsb' 0 8 = a := by
  iterate 2 rw [BitVec.extractLsb'_append_extractLsb'_eq_extractLsb' (by decide)]
  exact BitVec.extractLsb'_eq_self

theorem formatFourAddress_fields (high : BitVec 4) (mid low : Byte) :
    let a : BitVec 20 := high ++ mid ++ low
    a.extractLsb' 16 4 = high ∧ a.extractLsb' 8 8 = mid ∧ a.extractLsb' 0 8 = low := by
  refine ⟨?_, ?_, BitVec.extractLsb'_append_eq_right⟩
  · rw [BitVec.extractLsb'_append_eq_of_le (by decide), BitVec.extractLsb'_append_eq_left]
  · rw [BitVec.extractLsb'_append_eq_of_le (by decide)]
    exact BitVec.extractLsb'_append_eq_right

/-! ### The operand of formats 3 and 4 -/

theorem decodeOperand_sic {b0 : Byte} (hn : b0.getLsbD 1 = false) (hi : b0.getLsbD 0 = false) (b1 b2 : Byte)
    (rest : List Byte) :
    decodeOperand b0 (b1 :: b2 :: rest) = .ok (.sic (b1.getLsbD 7) (b1.extractLsb' 0 7 ++ b2), rest) := by
  simp only [decodeOperand, hn, hi, Bool.not_false, Bool.and_self, if_true]

theorem decodeOperand_f3 {b0 b1 : Byte} (hni : (b0.getLsbD 1 || b0.getLsbD 0) = true) (he : b1.getLsbD 4 = false)
    (b2 : Byte) (rest : List Byte) :
    decodeOperand b0 (b1 :: b2 :: rest) =
      .ok (.f3 (b0.getLsbD 1) (b0.getLsbD 0) (b1.getLsbD 7) (b1.getLsbD 6) (b1.getLsbD 5)
        (b1.extractLsb' 0 4 ++ b2), rest) := by
  simp only [decodeOperand, ← Bool.not_or, hni, he, Bool.not_true, Bool.false_eq_true, if_false, if_true]

theorem decodeOperand_f4 {b0 b1 : Byte} (hni : (b0.getLsbD 1 || b0.getLsbD 0) = true) (he : b1.getLsbD 4 = true)
    (b2 b3 : Byte) (rest : List Byte) :
    decodeOperand b0 (b1 :: b2 :: b3 :: rest) =
      .ok (.f4 (b0.getLsbD 1) (b0.getLsbD 0) (b1.getLsbD 7) (b1.getLsbD 6) (b1.getLsbD 5)
        (b1.extractLsb' 0 4 ++ b2 ++ b3), rest) := by
  simp only [decodeOperand, ← Bool.not_or, hni, he, Bool.not_true, Bool.false_eq_true, Bool.true_eq_false, if_false]

/-- The bytes of a well-formed operand carry the opcode bits in the first byte and decode to the operand (R98). -/
theorem decodeOperand_encodeOperand (op : Byte) {m : MemOperand} (hm : m.wellFormed = true) (rest : List Byte) :
    ∃ b0 tail, encodeOperand op m ++ rest = b0 :: tail ∧ b0.extractLsb' 2 6 = op.extractLsb' 2 6 ∧
      decodeOperand b0 tail = .ok (m, rest) := by
  cases m with
  | sic x a =>
    obtain ⟨hn, hi, hx, ha⟩ := sicBytes_fields (op.extractLsb' 2 6) x (a.extractLsb' 8 7)
    refine ⟨_, _, rfl, BitVec.extractLsb'_append_eq_left, (decodeOperand_sic hn hi _ _ rest).trans ?_⟩
    rw [hx, ha, BitVec.extractLsb'_append_extractLsb']
  | f3 n i x b p d =>
    obtain ⟨ho, hn, hi⟩ := firstByte_fields (op.extractLsb' 2 6) n i
    obtain ⟨hx, hb, hp, he, hd⟩ := secondByte_fields x b p false (d.extractLsb' 8 4)
    refine ⟨_, _, rfl, ho, (decodeOperand_f3 (by rw [hn, hi]; exact hm) he _ rest).trans ?_⟩
    rw [hn, hi, hx, hb, hp, hd, BitVec.extractLsb'_append_extractLsb']
  | f4 n i x b p a =>
    obtain ⟨ho, hn, hi⟩ := firstByte_fields (op.extractLsb' 2 6) n i
    obtain ⟨hx, hb, hp, he, hd⟩ := secondByte_fields x b p true (a.extractLsb' 16 4)
    refine ⟨_, _, rfl, ho, (decodeOperand_f4 (by rw [hn, hi]; exact hm) he _ _ rest).trans ?_⟩
    rw [hn, hi, hx, hb, hp, hd, formatFourAddress_join]

/-- A decoded operand is well formed, and its encoding under the opcode bits of `b0` is the bytes it was read from. -/
theorem encodeOperand_of_decodeOperand {b0 : Byte} {bytes rest : List Byte} {m : MemOperand}
    (h : decodeOperand b0 bytes = .ok (m, rest)) :
    m.wellFormed = true ∧ b0 :: bytes = encodeOperand (b0 &&& 0xFC#8) m ++ rest := by
  have hfirst := firstByte_join b0
  rw [← extractLsb'_and_opcodeMask] at hfirst
  revert h
  fun_cases decodeOperand b0 bytes with
  | case1 b1 b2 tail hsic =>
    rintro ⟨⟩
    obtain ⟨hn, hi⟩ : b0.getLsbD 1 = false ∧ b0.getLsbD 0 = false := by simpa using hsic
    rw [hn, hi, BitVec.append_assoc] at hfirst
    refine ⟨rfl, ?_⟩
    simp only [encodeOperand, List.cons_append, List.nil_append, List.cons.injEq, and_true]
    refine ⟨hfirst.symm, ?_, BitVec.extractLsb'_append_eq_right.symm⟩
    rw [BitVec.extractLsb'_append_eq_left, sicSecondByte_join]
  | case2 b1 b2 tail hni he =>
    rintro ⟨⟩
    have hsecond := secondByte_join b1
    rw [he] at hsecond
    refine ⟨by simpa [MemOperand.wellFormed, or_iff_not_imp_left] using hni, ?_⟩
    simp only [encodeOperand, List.cons_append, List.nil_append, List.cons.injEq, and_true]
    refine ⟨hfirst.symm, ?_, BitVec.extractLsb'_append_eq_right.symm⟩
    rw [BitVec.extractLsb'_append_eq_left]
    exact hsecond.symm
  | case3 b1 b2 hni he b3 tail =>
    rintro ⟨⟩
    have hsecond := secondByte_join b1
    rw [Bool.eq_true_of_not_eq_false he] at hsecond
    obtain ⟨hhigh, hmid, hlow⟩ := formatFourAddress_fields (b1.extractLsb' 0 4) b2 b3
    refine ⟨by simpa [MemOperand.wellFormed, or_iff_not_imp_left] using hni, ?_⟩
    simp only [encodeOperand, List.cons_append, List.nil_append, List.cons.injEq, and_true]
    refine ⟨hfirst.symm, ?_, hmid.symm, hlow.symm⟩
    rw [hhigh]
    exact hsecond.symm
  | case4 b1 b2 hni he => rintro ⟨⟩
  | case5 => rintro ⟨⟩

/-- Three bytes after the first are enough for every layout (R122). -/
theorem decodeOperand_ok_of_length (b0 : Byte) {bytes : List Byte} (h : 3 ≤ bytes.length) :
    ∃ m rest, decodeOperand b0 bytes = .ok (m, rest) := by
  match bytes, h with
  | b1 :: b2 :: b3 :: tail, _ =>
    by_cases hni : (b0.getLsbD 1 || b0.getLsbD 0) = true
    · cases he : b1.getLsbD 4 with
      | false => exact ⟨_, _, decodeOperand_f3 hni he b2 _⟩
      | true => exact ⟨_, _, decodeOperand_f4 hni he b2 b3 tail⟩
    · obtain ⟨hn, hi⟩ := Bool.or_eq_false_iff.mp (Bool.eq_false_of_not_eq_true hni)
      exact ⟨_, _, decodeOperand_sic hn hi b1 b2 _⟩

/-! ### The opcode table -/

theorem mem_of_lookup_eq_some {α β : Type} [BEq α] [LawfulBEq α] {l : List (α × β)} {k : α} {b : β}
    (h : l.lookup k = some b) : (k, b) ∈ l := by
  obtain ⟨before, after, rfl, _⟩ := List.lookup_eq_some_iff.mp h
  simp

/-- The first bytes of format 1 (R99), over the 256 values of a byte. -/
theorem f1Table_lookup_isSome (b : Byte) : (f1Table.lookup b).isSome = true ↔
    (0xC0 ≤ b.toNat ∧ b.toNat ≤ 0xC8 ∨ 0xF0 ≤ b.toNat ∧ b.toNat ≤ 0xF8) ∧ b.toNat % 4 = 0 := by
  revert b
  decide

/-- The first bytes of format 2 (R99). -/
theorem f2Table_lookup_isSome (b : Byte) : (f2Table.lookup b).isSome = true ↔
    0x90 ≤ b.toNat ∧ b.toNat ≤ 0xB8 ∧ b.toNat % 4 = 0 := by
  revert b
  decide

/-- The first bytes of formats 3 and 4, any n and i (R99). -/
theorem f34Table_lookup_isSome (b : Byte) : (f34Table.lookup (b &&& 0xFC#8)).isSome = true ↔
    b.toNat ≤ 0x8B ∨ 0xD0 ≤ b.toNat ∧ b.toNat ≤ 0xE3 ∨ 0xE8 ≤ b.toNat ∧ b.toNat ≤ 0xEF := by
  revert b
  decide

/-! The tables list disjoint sets of first bytes, so the order in which `decode` tries them does not matter. -/

theorem f1Table_lookup_eq_none_of_f2 {b : Byte} (h : (f2Table.lookup b).isSome = true) : f1Table.lookup b = none := by
  rw [← Option.not_isSome_iff_eq_none, f1Table_lookup_isSome]
  rw [f2Table_lookup_isSome] at h
  omega

theorem f1Table_f2Table_lookup_eq_none_of_f34 {b : Byte} (h : (f34Table.lookup (b &&& 0xFC#8)).isSome = true) :
    f1Table.lookup b = none ∧ f2Table.lookup b = none := by
  rw [← Option.not_isSome_iff_eq_none, ← Option.not_isSome_iff_eq_none, f1Table_lookup_isSome, f2Table_lookup_isSome]
  rw [f34Table_lookup_isSome] at h
  omega

/-- A row of format 1 agrees with the encoder. -/
theorem f1Table_row {op : Byte} {i : Instr} (h : f1Table.lookup op = some i) :
    encode i = [op] ∧ i.wellFormed = true := by
  have hrows : ∀ row ∈ f1Table, encode row.2 = [row.1] ∧ row.2.wellFormed = true := by
    intro row hrow
    fin_cases hrow <;> exact ⟨rfl, rfl⟩
  exact hrows _ (mem_of_lookup_eq_some h)

/-- A row of format 2 agrees with the encoder. -/
theorem f2Table_row {op : Byte} {mk : Nibble → Nibble → Instr} (h : f2Table.lookup op = some mk) (r1 r2 : Nibble) :
    encode (mk r1 r2) = encodePair op r1 r2 ∧ (mk r1 r2).wellFormed = true := by
  have hrows : ∀ row ∈ f2Table, ∀ r1 r2,
      encode (row.2 r1 r2) = encodePair row.1 r1 r2 ∧ (row.2 r1 r2).wellFormed = true := by
    intro row hrow
    fin_cases hrow <;> exact fun _ _ => ⟨rfl, rfl⟩
  exact hrows _ (mem_of_lookup_eq_some h) r1 r2

/-- A row of format 3/4 agrees with the encoder, and its opcode number has the bits of n and i clear (R99). -/
theorem f34Table_row {op : Byte} {mk : MemOperand → Instr} (h : f34Table.lookup op = some mk) (m : MemOperand) :
    op &&& 0xFC#8 = op ∧ encode (mk m) = encodeOperand op m ∧ (mk m).wellFormed = m.wellFormed := by
  have hrows : ∀ row ∈ f34Table, row.1 &&& 0xFC#8 = row.1 ∧ ∀ m,
      encode (row.2 m) = encodeOperand row.1 m ∧ (row.2 m).wellFormed = m.wellFormed := by
    intro row hrow
    fin_cases hrow <;> exact ⟨rfl, fun _ => ⟨rfl, rfl⟩⟩
  obtain ⟨hmask, hmk⟩ := hrows _ (mem_of_lookup_eq_some h)
  exact ⟨hmask, hmk m⟩

/-- Each of the 59 instructions is a row of one of the three tables (R99). -/
theorem tableRow_of_instr (i : Instr) :
    (∃ op, encode i = [op] ∧ f1Table.lookup op = some i) ∨
    (∃ op mk r1 r2, encode i = encodePair op r1 r2 ∧ f2Table.lookup op = some mk ∧ i = mk r1 r2) ∨
    ∃ op mk m, encode i = encodeOperand op m ∧ f34Table.lookup op = some mk ∧ i = mk m := by
  cases i with
  | float | fix | norm | sio | hio | tio => exact .inl ⟨_, rfl, rfl⟩
  | addr r1 r2 | subr r1 r2 | mulr r1 r2 | divr r1 r2 | compr r1 r2 | shiftl r1 r2 | shiftr r1 r2 | rmo r1 r2
  | svc r1 r2 | clear r1 r2 | tixr r1 r2 => exact .inr (.inl ⟨_, _, r1, r2, rfl, rfl, rfl⟩)
  | lda m | ldx m | ldl m | sta m | stx m | stl m | add m | sub m | mul m | div m | comp m | tix m | jeq m | jgt m
  | jlt m | j m | and m | or m | jsub m | rsub m | ldch m | stch m | addf m | subf m | mulf m | divf m | ldb m
  | lds m | ldf m | ldt m | stb m | sts m | stf m | stt m | compf m | lps m | sti m | rd m | wd m | td m | stsw m
  | ssk m => exact .inr (.inr ⟨_, _, m, rfl, rfl, rfl⟩)

/-! ### The decoder -/

/-- What the decoder accepts, format by format (R97, R98). -/
theorem decode_eq_ok_iff {b0 : Byte} {tail rest : List Byte} {i : Instr} :
    decode (b0 :: tail) = .ok (i, rest) ↔
      (f1Table.lookup b0 = some i ∧ tail = rest) ∨
      (∃ mk b1, f2Table.lookup b0 = some mk ∧ tail = b1 :: rest ∧ i = mk (b1.extractLsb' 4 4) (b1.extractLsb' 0 4)) ∨
      ∃ mk m, f34Table.lookup (b0 &&& 0xFC#8) = some mk ∧ decodeOperand b0 tail = .ok (m, rest) ∧ i = mk m := by
  constructor
  · intro h
    simp only [decode] at h
    split at h
    · next hf1 =>
      cases h
      exact .inl ⟨hf1, rfl⟩
    split at h
    · next hf2 =>
      split at h
      · cases h
        exact .inr (.inl ⟨_, _, hf2, rfl, rfl⟩)
      · cases h
    split at h
    · next hf34 =>
      split at h
      · next hop =>
        cases h
        exact .inr (.inr ⟨_, _, hf34, hop, rfl⟩)
      · cases h
    · cases h
  · rintro (⟨hf1, rfl⟩ | ⟨mk, b1, hf2, rfl, rfl⟩ | ⟨mk, m, hf34, hop, rfl⟩)
    · simp only [decode, hf1]
    · have hf1 := f1Table_lookup_eq_none_of_f2 (Option.isSome_of_eq_some hf2)
      simp only [decode, hf1, hf2]
    · obtain ⟨hf1, hf2⟩ := f1Table_f2Table_lookup_eq_none_of_f34 (Option.isSome_of_eq_some hf34)
      simp only [decode, hf1, hf2, hf34, hop]

/-- With three more bytes at hand the decoder refuses only a first byte that no table lists, by its name (R101). -/
theorem decode_eq_error_iff {b0 : Byte} {rest : List Byte} (hlen : 3 ≤ rest.length) {e : DecodeError} :
    decode (b0 :: rest) = .error e ↔
      e = .illegalOpcode b0 ∧ f1Table.lookup b0 = none ∧ f2Table.lookup b0 = none ∧
        f34Table.lookup (b0 &&& 0xFC#8) = none := by
  constructor
  · intro h
    simp only [decode] at h
    split at h
    · cases h
    next hf1 =>
    split at h
    · split at h
      · cases h
      · simp at hlen
    next hf2 =>
    split at h
    · obtain ⟨m, tail, hop⟩ := decodeOperand_ok_of_length b0 hlen
      rw [hop] at h
      cases h
    next hf34 =>
    cases h
    exact ⟨rfl, hf1, hf2, hf34⟩
  · rintro ⟨rfl, hf1, hf2, hf34⟩
    simp only [decode, hf1, hf2, hf34]

/-! ### The obligations -/

/-- Settles O4: each instruction is a table row, whose encoding the decoder finds under the same row. -/
theorem decodeOfEncode : Obligations.DecodeOfEncode := by
  intro i rest hwf
  obtain ⟨op, henc, hrow⟩ | ⟨op, mk, r1, r2, henc, hrow, rfl⟩ | ⟨op, mk, m, henc, hrow, rfl⟩ := tableRow_of_instr i
  · rw [henc]
    exact decode_eq_ok_iff.mpr (.inl ⟨hrow, rfl⟩)
  · rw [henc]
    refine decode_eq_ok_iff.mpr (.inr (.inl ⟨mk, _, hrow, rfl, ?_⟩))
    rw [BitVec.extractLsb'_append_eq_left, BitVec.extractLsb'_append_eq_right]
  · obtain ⟨hmask, _, hwfm⟩ := f34Table_row hrow m
    obtain ⟨b0, tail, hbytes, hop, hdec⟩ := decodeOperand_encodeOperand op (hwfm.symm.trans hwf) rest
    have hb0 : b0 &&& 0xFC#8 = op := by rw [and_opcodeMask, hop, ← and_opcodeMask, hmask]
    rw [henc, hbytes]
    exact decode_eq_ok_iff.mpr (.inr (.inr ⟨mk, m, hb0 ▸ hrow, hdec, rfl⟩))

/-- Settles O5: the row that accepted the bytes encodes to them. -/
theorem encodeOfDecode : Obligations.EncodeOfDecode := by
  intro bytes rest i h
  obtain _ | ⟨b0, tail⟩ := bytes
  · cases h
  obtain ⟨hrow, rfl⟩ | ⟨mk, b1, hrow, rfl, rfl⟩ | ⟨mk, m, hrow, hdec, rfl⟩ := decode_eq_ok_iff.mp h
  · obtain ⟨henc, hwf⟩ := f1Table_row hrow
    exact ⟨hwf, by rw [henc]; rfl⟩
  · obtain ⟨henc, hwf⟩ := f2Table_row hrow (b1.extractLsb' 4 4) (b1.extractLsb' 0 4)
    refine ⟨hwf, ?_⟩
    rw [henc, encodePair, BitVec.extractLsb'_append_extractLsb']
    rfl
  · obtain ⟨_, henc, hwf⟩ := f34Table_row hrow m
    obtain ⟨hm, hbytes⟩ := encodeOperand_of_decodeOperand hdec
    exact ⟨hwf.trans hm, by rw [henc]; exact hbytes⟩

/-- Settles O6: the refused first bytes are those outside the ranges the three tables list. -/
theorem illegalOpcodeBytes : Obligations.IllegalOpcodeBytes := by
  intro b0 rest hlen
  refine ⟨?_, fun e he => ((decode_eq_error_iff hlen).mp he).1⟩
  have hlt := b0.isLt
  simp only [decode_eq_error_iff hlen, exists_eq_left, ← Option.not_isSome_iff_eq_none, f1Table_lookup_isSome,
    f2Table_lookup_isSome, f34Table_lookup_isSome]
  omega

end Sys2Proof
end

section
/-! SUPPORT. The cycle as a whole: that every instruction answers, what a step does where the bytes at PC decode and where
they do not, the count of the cycle, and Timer-Tick. -/

namespace Sys2Proof.Machine

/-! ### The count of the cycle

The counter is advanced by `countCycle` alone: not by the fetch, an effect, a condition or an interrupt. -/

/-- No effect of an instruction touches the counter (40_cycle.md R132). -/
theorem EffectsKeep.of_count (i : Instr) (s : State) : EffectsKeep i s (fun t => t.count = s.count) where
  toRobust :=
    Robust.of_field State.count s.count (fun _ _ _ => rfl) (fun _ _ => rfl) (fun _ => rfl) (fun _ _ _ => rfl)
  regs _ _ _ h := h
  trace _ _ h := h
  pc _ _ _ h := h
  cc _ _ _ h := h
  unpack _ _ _ h := h
  store _ _ _ _ _ h := h
  timer _ _ _ h := h
  device _ _ _ h := h

/-- Every instruction answers a next state, with the counter as it was (40_cycle.md R131). -/
theorem exec_next_count (i : Instr) (s : State) : ∃ t, exec i s = .next t ∧ t.count = s.count :=
  exec_keeps (EffectsKeep.of_count i s) rfl

theorem State.fetched_count (s : State) (n : Nat) : (s.fetched n).count = s.count := by
  obtain ⟨a, r, hf⟩ := s.fetched_frame n
  rw [hf]

theorem State.raiseProgram_count (s : State) (code : Byte) (kind : Report) :
    (s.raiseProgram code kind).count = s.count :=
  State.raiseProgram_elim (P := fun t => t.count = s.count) (fun _ => rfl) (fun _ => rfl)

/-- A completed cycle is counted once (40_cycle.md R132). -/
theorem State.finishCycle_count (s : State) : s.finishCycle.count = s.count + 1 := by
  have htick : s.tick.count = s.count :=
    State.tick_elim (P := fun t => t.count = s.count) (fun _ _ => rfl) (fun _ => rfl)
  have hsample : s.tick.sampleIo.count = s.tick.count :=
    State.sampleIo_elim (P := fun t => t.count = s.tick.count) (fun _ => rfl) (fun _ _ _ => rfl)
      (fun _ _ _ _ => rfl)
  have hdrain : s.tick.sampleIo.drain.count = s.tick.sampleIo.count :=
    State.drain_elim (P := fun t => t.count = s.tick.sampleIo.count) (fun _ _ _ => rfl) (fun _ => rfl)
  exact congrArg (· + 1) (hdrain.trans (hsample.trans htick))

theorem State.endCycle_of_aborted {s : State} (h : s.aborted = true) : s.endCycle = s := if_pos h

theorem State.endCycle_of_running {s : State} (h : s.aborted = false) :
    s.endCycle = s.tick.sampleIo.drain.countCycle := if_neg (by simp [h])

/-- A cycle ends completed and counted, or aborted and not counted (20_memory.md R71, 40_cycle.md R132). -/
theorem State.endCycle_counted_or_aborted (s : State) :
    (s.endCycle.aborted = false ∧ s.endCycle.count = s.count + 1) ∨
      (s.endCycle.aborted = true ∧ s.endCycle.count = s.count) := by
  cases h : s.aborted with
  | false =>
    rw [State.endCycle_of_running h]
    exact .inl ⟨s.finishCycle_aborted.trans h, s.finishCycle_count⟩
  | true =>
    rw [State.endCycle_of_aborted h]
    exact .inr ⟨h, rfl⟩

/-! ### The step -/

/-- The step of bytes that decode (40_cycle.md R120). -/
theorem step_of_decode_ok {s t : State} {i : Instr} {rest : List Byte} (hd : decode s.fetchBytes = .ok (i, rest))
    (ht : exec i (s.fetched (instrLength i)) = .next t) : step s = .next t.endCycle := by
  rw [step, hd]
  dsimp only
  rw [ht]

/-- The step of bytes that decode to no instruction (40_cycle.md R123). -/
theorem step_of_decode_error {s : State} {e : DecodeError} (hd : decode s.fetchBytes = .error e) :
    step s = .next ((s.fetched 1).raiseProgram codeIllegalInstruction .illegalOpcode).endCycle := by
  rw [step, hd]

/-- The model's program condition is the one of the rules (60_exceptions.md R303). -/
theorem State.raiseProgram_eq (s : State) (code : Byte) (kind : Report) :
    s.raiseProgram code kind = programCondition s code kind := by
  rw [State.raiseProgram, programCondition, State.enabled_program]
  rfl

/-- A step is the end of a cycle that began with the counter of `s`. -/
theorem step_eq_endCycle (s : State) : ∃ u : State, step s = .next u.endCycle ∧ u.count = s.count := by
  cases hd : decode s.fetchBytes with
  | ok p =>
    obtain ⟨i, rest⟩ := p
    obtain ⟨u, hu, hcount⟩ := exec_next_count i (s.fetched (instrLength i))
    exact ⟨u, step_of_decode_ok hd hu, hcount.trans (s.fetched_count _)⟩
  | error e =>
    exact ⟨_, step_of_decode_error hd, (State.raiseProgram_count _ _ _).trans (s.fetched_count 1)⟩

/-- Settles O12: nothing before the end of the cycle touches the counter, and the end counts exactly the cycles that are
not aborted. -/
theorem everyCycleEnds : Obligations.EveryCycleEnds := by
  intro s
  obtain ⟨u, hstep, hcount⟩ := step_eq_endCycle s
  exact ⟨u.endCycle, hstep, hcount ▸ u.endCycle_counted_or_aborted⟩

/-- Settles O8: an instruction that decodes is well formed, `exec` answers a state for it, and the step ends its cycle. -/
theorem stepRunsDecodedInstruction : Obligations.StepRunsDecodedInstruction := by
  intro s i rest hd
  obtain ⟨t, ht, _⟩ := exec_next_count i (s.fetched (instrLength i))
  exact ⟨(encodeOfDecode _ _ _ hd).1, t, ht, step_of_decode_ok hd ht⟩

/-- Settles O11: the condition is raised in the fetched state, where the aborted flag is clear, so the cycle runs on. -/
theorem illegalOpcodeCycle : Obligations.IllegalOpcodeCycle := by
  intro s e hd
  have hrunning : ((s.fetched 1).raiseProgram codeIllegalInstruction .illegalOpcode).aborted = false :=
    State.raiseProgram_aborted _ _ _
  rw [step_of_decode_error hd, State.endCycle_of_running hrunning, State.raiseProgram_eq]
  rfl

/-! ### Timer-Tick -/

/-- The countdown on the signed value: a positive timer is far from the bottom of the range, so one less does not wrap
(10_state.md R40, D24). -/
theorem toInt_timerTick (v : Word) : (timerTick v).toInt = if 0 < v.toInt then v.toInt - 1 else v.toInt := by
  unfold timerTick s24
  split
  · next hpos =>
    have hlt := v.toInt_lt
    have hone : (1#24).toInt = 1 := by decide
    rw [BitVec.toInt_sub, hone]
    exact Int.bmod_eq_of_le (by omega) (by omega)
  · rfl

/-- Timer-Tick writes TIMER and the TIMER slot (40_cycle.md R127). -/
theorem State.tick_eq (s : State) :
    s.tick = { s with
      timer := timerTick s.timer
      pend :=
        if s24 (timerTick s.timer) ≤ 0 ∧ s.enabled .timer = true then { s.pend with timer := some 0x00#8 }
        else s.pend } := by
  unfold State.tick
  split_ifs <;> rfl

/-- Settles O14: the tick's test reads the signed value counted down and the MASK bit of the class. -/
theorem timerTickCountsDown : Obligations.TimerTickCountsDown := by
  intro s z
  have hz : (timerTick s.timer).toInt = z := toInt_timerTick s.timer
  rw [State.tick_eq, State.enabled_timer, s24, hz]
  exact ⟨rfl, rfl⟩

end Sys2Proof.Machine
end

section
/-! SUPPORT. The address resolver: when it fails, what it answers as integers, and what a format-3/4 instruction does with
an operand that does not resolve. The spec's own words, decoded, stand at the end. -/

namespace Sys2Proof.Machine

/-! ### The error cases -/

theorem modeOfFlags_eq_ite (n i : Bool) :
    modeOfFlags n i =
      if n = true then (if i = true then .simple else .indirect) else (if i = true then .immediate else .sic) := by
  cases n <;> cases i <;> rfl

theorem modeOfFlags_eq_immediate_iff (n i : Bool) : modeOfFlags n i = .immediate ↔ n = false ∧ i = true := by
  revert n i; decide

/-- Format 3 is relocated by PC or by B, not by both (R152). -/
theorem relocate_f3_eq_none_iff (n i x b p : Bool) (d : BitVec 12) (s : State) :
    relocate (.f3 n i x b p d) s = none ↔ b = true ∧ p = true := by
  cases b <;> cases p <;> simp [relocate]

/-- Format 4 is never relocated: either flag is an error (R152). -/
theorem relocate_f4_eq_none_iff (n i x b p : Bool) (a : BitVec 20) (s : State) :
    relocate (.f4 n i x b p a) s = none ↔ b = true ∨ p = true := by
  cases b <;> cases p <;> simp [relocate]

/-- Indexing fails for an immediate operand alone (R153). -/
theorem indexAndDereference_eq_none_iff (mode : AddrMode) (x : Bool) (t1 : Word) (s : State) :
    indexAndDereference mode x t1 s = none ↔ mode = .immediate ∧ x = true := by
  cases mode <;> simp [indexAndDereference]

/-- The resolver answers when both of its parts do. -/
theorem resolve_eq_some_iff {m : MemOperand} {s : State} {r : Resolved} :
    resolve m s = some r ↔
      ∃ t1, relocate m s = some t1 ∧ indexAndDereference (operandMode m) (operandIndexed m) t1 s = some r := by
  unfold resolve
  cases relocate m s <;> simp

theorem resolve_eq_none_iff {m : MemOperand} {s : State} :
    resolve m s = none ↔ relocate m s = none ∨ (operandMode m = .immediate ∧ operandIndexed m = true) := by
  unfold resolve
  cases relocate m s <;> simp [indexAndDereference_eq_none_iff]

/-- Settles O27: the relocation fails on b and p, the indexing on an indexed immediate operand. -/
theorem resolverErrorCases : Obligations.ResolverErrorCases := by
  intro m s
  rw [resolve_eq_none_iff]
  cases m with
  | sic x a => simp [relocate, operandMode]
  | f3 n i x b p d =>
    simp only [relocate_f3_eq_none_iff, operandMode, operandIndexed, modeOfFlags_eq_immediate_iff, and_assoc]
  | f4 n i x b p a =>
    simp only [relocate_f4_eq_none_iff, operandMode, operandIndexed, modeOfFlags_eq_immediate_iff, and_assoc]

/-! ### The addresses -/

/-- The operand field relocated, before any reduction (R151, R152): PC-relative with the displacement as a signed
number, base-relative with the displacement as an unsigned one (D13). -/
def relocatedInt (m : MemOperand) (s : State) : Int :=
  match m with
  | .sic _ a => a.toNat
  | .f4 _ _ _ _ _ a => a.toNat
  | .f3 _ _ _ b p d =>
    if p = true then (if d.toNat < 2048 then (d.toNat : Int) else d.toNat - 4096) + s.pc.toNat
    else if b = true then d.toNat + s.regs.b.toNat
    else d.toNat

/-- What indexing adds, before the indirection or after it (R153, R154). -/
def indexWord (m : MemOperand) (s : State) : Word := if operandIndexed m = true then s.regs.x else 0#24

theorem natCast_toNat_indexWord (m : MemOperand) (s : State) :
    ((indexWord m s).toNat : Int) = if operandIndexed m = true then (s.regs.x.toNat : Int) else 0 := by
  unfold indexWord
  split <;> rfl

/-- A sum of words is the sum of their numbers reduced (R7). -/
theorem natCast_toNat_add (v w : Word) : ((v + w).toNat : Int) = ((v.toNat : Int) + w.toNat) % 2 ^ 24 := by
  rw [BitVec.toNat_add]
  norm_cast

/-- The sign-extended displacement, reduced (R7, R152). -/
theorem natCast_toNat_sext12 (d : BitVec 12) :
    ((sext12 d).toNat : Int) = (if d.toNat < 2048 then (d.toNat : Int) else d.toNat - 4096) % 2 ^ 24 := by
  have hlt := d.isLt
  rw [sext12, BitVec.toNat_signExtend, BitVec.toNat_setWidth]
  by_cases hsmall : d.toNat < 2048
  · have hmsb : ¬ d.msb = true := by simpa [BitVec.msb_eq_decide] using hsmall
    rw [if_neg hmsb, if_pos hsmall]
    omega
  · have hmsb : d.msb = true := by simpa [BitVec.msb_eq_decide] using hsmall
    rw [if_pos hmsb, if_neg hsmall]
    omega

/-- Steps 1 and 2 compute the relocated number mod 2^24 (R151, R152). -/
theorem relocate_toNat {m : MemOperand} {s : State} {t1 : Word} (h : relocate m s = some t1) :
    (t1.toNat : Int) = relocatedInt m s % 2 ^ 24 := by
  cases m with
  | sic x a =>
    cases h
    simp [relocatedInt]
  | f4 n i x b p a =>
    obtain ⟨-, rfl⟩ : _ ∧ a.setWidth 24 = t1 := by simpa [relocate] using h
    simp [relocatedInt]
  | f3 n i x b p d =>
    match b, p with
    | false, false =>
      cases h
      simp [relocatedInt]
    | false, true =>
      cases h
      rw [natCast_toNat_add, natCast_toNat_sext12, Int.emod_add_emod]
      simp [relocatedInt, addrWord]
    | true, false =>
      cases h
      rw [natCast_toNat_add]
      simp [relocatedInt]
    | true, true => cases h

/-- Steps 3 and 4: `ta` is indexed in the simple and SIC modes, `ea` is `ta` or the word it names, indexed
(R153, R154, D10). -/
theorem indexAndDereference_eq_some {m : MemOperand} {t1 : Word} {s : State} {r : Resolved}
    (h : indexAndDereference (operandMode m) (operandIndexed m) t1 s = some r) :
    r.mode = operandMode m ∧
    r.ta = (if operandMode m = .simple ∨ operandMode m = .sic then t1 + indexWord m s else t1) ∧
    (operandMode m = .indirect → r.ea = wordAt s.mem (addr20 r.ta) + indexWord m s) ∧
    (operandMode m ≠ .indirect → r.ea = r.ta) := by
  cases hmode : operandMode m with
  | sic | simple =>
    rw [hmode] at h
    cases h
    simp [indexWord]
  | immediate =>
    rw [hmode] at h
    obtain ⟨-, rfl⟩ : _ ∧ Resolved.mk .immediate t1 t1 = r := by simpa [indexAndDereference] using h
    simp
  | indirect =>
    rw [hmode] at h
    cases h
    simp [indexWord, Memory.readWord_eq_wordAt]

/-- `addr20` is reduction mod 2^20 (R7). -/
theorem addr20_eq_ofNat (v : Word) : addr20 v = BitVec.ofNat 20 v.toNat := (BitVec.ofNat_toNat 20 v).symm

/-- Settles O28: each of the four steps of the resolver reduces a sum mod 2^24, and the reductions join. -/
theorem resolverAddresses : Obligations.ResolverAddresses := by
  intro m s r h mode relocated index
  have hmode : mode = operandMode m := by
    cases m with
    | sic x a => rfl
    | f3 n i x b p d | f4 n i x b p a => exact (modeOfFlags_eq_ite n i).symm
  have hrelocated : relocated = relocatedInt m s := by cases m <;> rfl
  have hindex : index = ((indexWord m s).toNat : Int) := by
    rw [natCast_toNat_indexWord]
    cases m <;> rfl
  obtain ⟨t1, hrel, hidx⟩ := resolve_eq_some_iff.mp h
  obtain ⟨hm, hta, hindirect, hdirect⟩ := indexAndDereference_eq_some hidx
  rw [hmode, hrelocated, hindex]
  refine ⟨hm, ?_, fun hi => ?_, hdirect⟩
  · rw [hta]
    split
    · rw [natCast_toNat_add, relocate_toNat hrel, Int.emod_add_emod]
    · rw [relocate_toNat hrel, add_zero]
  · rw [hindirect hi, natCast_toNat_add, addr20_eq_ofNat]

/-! ### The addressing error -/

/-- Each format-3/4 instruction begins with the stage Resolve-Address (40_cycle.md R124). -/
theorem exec_eq_withOperand {i : Instr} {m : MemOperand} (h : memOperandOf i = some m) (s : State) :
    ∃ k, exec i s = .next (s.withOperand m k) := by
  cases i with
  | addr | subr | mulr | divr | compr | shiftl | shiftr | rmo | svc | clear | tixr
  | float | fix | norm | sio | hio | tio => cases h
  | _ =>
    cases h
    exact ⟨_, rfl⟩

/-- An operand that does not resolve raises the condition whatever was to follow (R155). -/
theorem State.withOperand_of_unresolved {s : State} {m : MemOperand} (h : resolve m s = none) (k : Resolved → State) :
    s.withOperand m k = programCondition s 0x02#8 .invalidAddressing := by
  rw [State.withOperand, h]
  exact s.raiseProgram_eq _ _

/-- Settles O30: the stage that fails comes before the privilege check and every effect. -/
theorem addressingErrorCondition : Obligations.AddressingErrorCondition := by
  intro i m s hi hr
  obtain ⟨k, hk⟩ := exec_eq_withOperand hi s
  rw [hk, State.withOperand_of_unresolved hr]

/-! ### The words of the spec -/

/-- Settles O7: the decoder runs on each word. -/
theorem specWordsDecode : Obligations.SpecWordsDecode :=
  ⟨rfl, rfl, rfl, rfl, rfl, rfl, rfl, rfl, rfl, rfl, rfl⟩

end Sys2Proof.Machine
end

section
/-! SUPPORT. Loads and stores: what an operand read and a hooked write do at every width, and from it the two
shapes of rules the instructions of spec/42_load_store.md have. -/

namespace Sys2Proof.Machine

/-! ### The writers of X -/

/-- X is touched by the write of the registers alone, and by that only where the class of `i` has it
(42_load_store.md R189). -/
theorem EffectsKeep.of_index {i : Instr} (s : State) (hi : writesIndex i = false) :
    EffectsKeep i s (fun t => t.regs.x = s.regs.x) where
  toRobust :=
    Robust.of_field (fun t => t.regs.x) s.regs.x (fun _ _ _ => rfl) (fun _ _ => rfl) (fun _ => rfl) (fun _ _ _ => rfl)
  regs _ _ hx h := (hx hi).trans h
  trace _ _ h := h
  pc _ _ _ h := h
  cc _ _ _ h := h
  unpack _ _ _ h := h
  store _ _ _ _ _ h := h
  timer _ _ _ h := h
  device _ _ _ h := h

/-- Settles O23: with the writers of R189 left out every effect keeps X. -/
theorem indexRegisterWriters : Obligations.IndexRegisterWriters :=
  fun _ s _ hi ht => exec_next_keeps (EffectsKeep.of_index s hi) rfl ht

/-! ### Hooked accesses -/

theorem State.hookAborts_iff (s : State) (a : Addr) (k : AccessKind) (w : AccessWidth) :
    s.hookAborts a k w = true ↔ HookPoint.mk a k w ∈ s.hook := decide_eq_true_iff

theorem State.hookedRead_of_mem {s : State} {a : Addr} {w : AccessWidth} (h : HookPoint.mk a .read w ∈ s.hook)
    (k : State → State) : s.hookedRead a w k = s.abortCycle := if_pos ((s.hookAborts_iff ..).mpr h)

theorem State.hookedRead_of_not_mem {s : State} {a : Addr} {w : AccessWidth} (h : HookPoint.mk a .read w ∉ s.hook)
    (k : State → State) : s.hookedRead a w k = k (s.noteRead a w) := if_neg (mt (s.hookAborts_iff ..).mp h)

theorem State.hookedWrite_of_mem {s : State} {a : Addr} {w : AccessWidth} (h : HookPoint.mk a .write w ∈ s.hook)
    (m : Memory) : s.hookedWrite a w m = s.abortCycle := if_pos ((s.hookAborts_iff ..).mpr h)

theorem State.hookedWrite_of_not_mem {s : State} {a : Addr} {w : AccessWidth} (h : HookPoint.mk a .write w ∉ s.hook)
    (m : Memory) : s.hookedWrite a w m = (s.noteWrite a w).setMem m := if_neg (mt (s.hookAborts_iff ..).mp h)

/-- An operand that resolves goes on to the effect (41_address_resolver.md R156). -/
theorem State.withOperand_of_resolved {s : State} {m : MemOperand} {r : Resolved} (h : resolve m s = some r)
    (k : Resolved → State) : s.withOperand m k = k r := by
  rw [State.withOperand, h]

/-! ### The operand forms

`wordOperand`, `byteOperand` and `floatOperand` differ in the width of their access and in the value they hand on. -/

theorem lowByte_eq_ofNat (v : Word) : lowByte v = BitVec.ofNat 8 v.toNat := by
  rw [lowByte, extractLsb'_eq_ofNat_div, pow_zero, Nat.div_one]

/-- Replacing the low byte keeps the quotient by 256 (42_load_store.md R176). -/
theorem withLowByte_eq_replaceLowByte (v : Word) (b : Byte) : withLowByte v b = replaceLowByte v b := by
  refine BitVec.eq_of_toNat_eq ?_
  have hv := v.isLt
  have hb := b.isLt
  rw [withLowByte, toNat_append_eq_mul_add, BitVec.extractLsb'_toNat, Nat.shiftRight_eq_div_pow, replaceLowByte,
    BitVec.toNat_ofNat]
  omega

/-- `read` is the operand form of width `w` whose operand is `value` (41_address_resolver.md R157): the hook aborts it,
or the value goes to the effect with the state after the read. -/
structure IsOperandForm {α : Type} (w : AccessWidth) (value : State → Resolved → α)
    (read : State → Resolved → (α → State → State) → State) : Prop where
  aborts : ∀ {s r}, ReadAborts s r w → ∀ k, read s r k = s.abortCycle
  proceeds : ∀ {s r}, ReadProceeds s r w → ∀ k, read s r k = k (value s r) (readNoted s r w)

/-- A form is one when it hands on the value at once in the immediate mode and after a hooked read in the others, and
noting the read does not change the value. -/
theorem IsOperandForm.of_hookedRead {α : Type} {w : AccessWidth} {value : State → Resolved → α}
    {read : State → Resolved → (α → State → State) → State}
    (himmediate : ∀ s r k, r.mode = .immediate → read s r k = k (value s r) s)
    (hmemory : ∀ s r k, r.mode ≠ .immediate →
      read s r k = s.hookedRead (addr20 r.ea) w fun u => k (value u r) u)
    (hvalue : ∀ s r a, value (s.noteRead a w) r = value s r) : IsOperandForm w value read where
  aborts {s r} h k := by
    obtain ⟨hmode, hhook⟩ := h
    rw [hmemory s r k hmode, State.hookedRead_of_mem hhook]
  proceeds {s r} h k := by
    by_cases hmode : r.mode = .immediate
    · rw [himmediate s r k hmode, readNoted, if_pos hmode]
    · rw [hmemory s r k hmode, State.hookedRead_of_not_mem (h.resolve_left hmode), hvalue, readNoted, if_neg hmode]
      rfl

theorem wordOperand_isOperandForm : IsOperandForm .word wordValue State.wordOperand :=
  .of_hookedRead (fun s r k h => by rw [State.wordOperand, if_pos h, wordValue, if_pos h])
    (fun s r k h => by simp only [State.wordOperand, wordValue, if_neg h, Memory.readWord_eq_wordAt])
    (fun _ _ _ => rfl)

theorem byteOperand_isOperandForm : IsOperandForm .byte byteValue State.byteOperand :=
  .of_hookedRead (fun s r k h => by rw [State.byteOperand, if_pos h, byteValue, if_pos h, lowByte_eq_ofNat])
    (fun s r k h => by simp only [State.byteOperand, byteValue, if_neg h])
    (fun _ _ _ => rfl)

theorem floatOperand_isOperandForm : IsOperandForm .float floatValue State.floatOperand :=
  .of_hookedRead (fun s r k h => by rw [State.floatOperand, if_pos h, floatValue, if_pos h, s24])
    (fun s r k h => by simp only [State.floatOperand, floatValue, if_neg h, Memory.readFloat_eq_floatAt])
    (fun _ _ _ => rfl)

/-! ### Loads -/

/-- An instruction that resolves, reads its operand and applies `effect` obeys the operand rule (42_load_store.md
R178). -/
theorem IsOperandForm.operandRule {α : Type} {mk : MemOperand → Instr} {op : Byte} {w : AccessWidth}
    {value : State → Resolved → α} {effect : α → State → State}
    {read : State → Resolved → (α → State → State) → State} (hread : IsOperandForm w value read)
    (hencode : ∀ m, encode (mk m) = encodeOperand op m)
    (hexec : ∀ m s, exec (mk m) s = .next (s.withOperand m fun r => read s r effect)) :
    OperandRule mk op w value effect := by
  intro m s
  refine ⟨hencode m, fun hnone => ?_, fun r hr => ⟨fun ha => ?_, fun hp => ?_⟩⟩
  · rw [hexec, State.withOperand_of_unresolved hnone]
  · rw [hexec, State.withOperand_of_resolved hr, hread.aborts ha, State.abortCycle]
  · rw [hexec, State.withOperand_of_resolved hr, hread.proceeds hp]

/-- Settles O32: each of the six loads is a word operand and the write of one register. -/
theorem wordLoads : Obligations.WordLoads := by
  refine ⟨?_, ?_, ?_, ?_, ?_, ?_⟩ <;>
    exact wordOperand_isOperandForm.operandRule (fun _ => rfl) (fun _ _ => rfl)

/-- Settles O33: LDCH joins the byte operand to the upper bits of A, LDF writes the float operand. -/
theorem byteAndFloatLoads : Obligations.ByteAndFloatLoads := by
  refine ⟨byteOperand_isOperandForm.operandRule (fun _ => rfl) fun m s => ?_,
    floatOperand_isOperandForm.operandRule (fun _ => rfl) (fun _ _ => rfl)⟩
  simp only [← withLowByte_eq_replaceLowByte]
  rfl

/-! ### Stores -/

/-- An instruction that resolves and writes `bytes` at `ea` obeys the store rule (42_load_store.md R188). -/
theorem StoreRule.of_hookedWrite {mk : MemOperand → Instr} {op : Byte} {w : AccessWidth} {bytes : State → List Byte}
    (hencode : ∀ m, encode (mk m) = encodeOperand op m) (hlength : ∀ s, (bytes s).length = w.bytes)
    (hexec : ∀ m s, exec (mk m) s = .next (s.withOperand m fun r =>
      s.hookedWrite (addr20 r.ea) w (Memory.writeBytes s.mem (addr20 r.ea) (bytes s)))) :
    StoreRule mk op w bytes := by
  intro m s
  refine ⟨hencode m, fun hnone => ?_, fun r hr => ⟨fun ha => ?_, fun hp _ => ?_⟩⟩
  · rw [hexec, State.withOperand_of_unresolved hnone]
  · rw [hexec, State.withOperand_of_resolved hr, State.hookedWrite_of_mem ha, State.abortCycle]
  · have hfits : (bytes s).length ≤ 2 ^ 20 := by
      rw [hlength]
      cases w <;> decide
    refine ⟨(s.noteWrite (addr20 r.ea) w).setMem (Memory.writeBytes s.mem (addr20 r.ea) (bytes s)), ?_, ?_,
      Memory.byte_writeBytes_inside _ _ _ hfits, fun a => Memory.byte_writeBytes_outside _ _ a _⟩
    · rw [hexec, State.withOperand_of_resolved hr, State.hookedWrite_of_not_mem hp]
    · rw [hlength]
      rfl

/-- A word store writes the three bytes of its word (20_memory.md R62). -/
theorem StoreRule.of_storeWord {mk : MemOperand → Instr} {op : Byte} {v : State → Word}
    (hencode : ∀ m, encode (mk m) = encodeOperand op m)
    (hexec : ∀ m s, exec (mk m) s = .next (s.storeWord m (v s))) :
    StoreRule mk op .word (fun s => bytesOfWord (v s)) :=
  .of_hookedWrite hencode (fun _ => rfl) fun m s => by
    simp only [hexec, State.storeWord, Memory.writeWord, wordBytes_eq_bytesOfWord]

/-- Settles O34: each of the seven stores is a word store of its register. -/
theorem wordStores : Obligations.WordStores := by
  refine ⟨?_, ?_, ?_, ?_, ?_, ?_, ?_⟩ <;>
    exact .of_storeWord (fun _ => rfl) (fun _ _ => rfl)

/-- Settles O35: STCH writes the low byte of A, STF the six bytes of F. -/
theorem byteAndFloatStores : Obligations.ByteAndFloatStores := by
  refine ⟨.of_hookedWrite (fun _ => rfl) (fun _ => rfl) fun m s => ?_,
    .of_hookedWrite (fun _ => rfl) (fun _ => rfl) fun m s => ?_⟩
  · rw [← lowByte_eq_ofNat]
    rfl
  · rw [← floatBytes_eq_bytesOfFloat]
    rfl

end Sys2Proof.Machine
end

section
/-! SUPPORT. Integer arithmetic with a memory operand: the word operations as exact integers reduced mod 2^24, the
quotient and the comparison as the rules of spec/43_integer_arith.md word them, and the effect of each instruction. -/

namespace Sys2Proof.Machine

/-! ### Words as exact integers

`BitVec.add_def` says for the sum what these lemmas say for the other operations. -/

/-- The exact difference, which may be negative, reduced (00_scope.md R7, 43_integer_arith.md R209). -/
theorem sub_eq_ofInt (v w : Word) : v - w = BitVec.ofInt 24 ((v.toNat : Int) - w.toNat) := by
  have hcast (u : Word) : BitVec.ofInt 24 u.toNat = u := by
    rw [BitVec.ofInt_natCast, BitVec.ofNat_toNat, BitVec.setWidth_eq]
  rw [Int.sub_eq_add_neg, BitVec.ofInt_add, BitVec.ofInt_neg, hcast, hcast, BitVec.sub_eq_add_neg]

theorem mul_eq_ofNat (v w : Word) : v * w = BitVec.ofNat 24 (v.toNat * w.toNat) :=
  BitVec.eq_of_toNat_eq (by rw [BitVec.toNat_mul, BitVec.toNat_ofNat])

theorem and_eq_ofNat (v w : Word) : v &&& w = BitVec.ofNat 24 (v.toNat &&& w.toNat) := by
  rw [BitVec.ofNat_and, BitVec.ofNat_toNat, BitVec.ofNat_toNat, BitVec.setWidth_eq, BitVec.setWidth_eq]

theorem or_eq_ofNat (v w : Word) : v ||| w = BitVec.ofNat 24 (v.toNat ||| w.toNat) := by
  rw [BitVec.ofNat_or, BitVec.ofNat_toNat, BitVec.ofNat_toNat, BitVec.setWidth_eq, BitVec.setWidth_eq]

/-! ### The quotient and the comparison -/

/-- The quotient toward zero as R203 words it: where `|a| < |d|` both sides vanish, elsewhere the signs multiply. -/
theorem tdiv_eq_sign_mul (a d : Int) : tdiv a d = a.sign * d.sign * (a.natAbs / d.natAbs : Nat) := by
  rw [tdiv, ← Int.sign_mul_natAbs (a.tdiv d), Int.sign_tdiv, Int.natAbs_tdiv]
  split
  · next hlt => rw [Nat.div_eq_of_lt hlt, zero_mul, Nat.cast_zero, mul_zero]
  · rfl

theorem divWord_eq_ofInt (a d : Word) :
    divWord a d = BitVec.ofInt 24 (a.toInt.sign * d.toInt.sign * (a.toInt.natAbs / d.toInt.natAbs : Nat)) :=
  congrArg trunc24 (tdiv_eq_sign_mul _ _)

theorem s24_eq_zero_iff (v : Word) : s24 v = 0 ↔ v = 0 := by
  rw [← BitVec.toInt_inj, s24]
  rfl

/-- The sign of an exact difference is the order of its terms (10_state.md R34). -/
theorem ccOf_sub (x y : Int) : ccOf (x - y) = if x < y then 0b01 else if x = y then 0b00 else 0b10 := by
  simp only [ccOf, sub_neg, sub_pos]
  obtain hlt | rfl | hgt := lt_trichotomy x y
  · rw [if_pos hlt, if_pos hlt]
    rfl
  · simp
  · rw [if_neg hgt.not_gt, if_neg hgt.not_gt, if_pos hgt, if_neg hgt.ne']
    rfl

/-- A comparison of words sets CC to their signed order (43_integer_arith.md R206, 44_register_ops.md R225). -/
theorem State.setCC_s24_sub (s : State) (v w : Word) :
    s.setCC (s24 v - s24 w) = { s with sw := { s.sw with
      cc := if v.toInt < w.toInt then 0b01 else if v.toInt = w.toInt then 0b00 else 0b10 } } := by
  rw [State.setCC, ccOf_sub]
  rfl

/-! ### The instructions -/

/-- An instruction whose effect on the word operand is `run`, which the rule words as `effect` (R208). -/
theorem OperandRule.of_withWord {mk : MemOperand → Instr} {op : Byte} {run effect : Word → State → State}
    (hencode : ∀ m, encode (mk m) = encodeOperand op m) (hexec : ∀ m s, exec (mk m) s = .next (s.withWord m run))
    (heffect : ∀ v u, run v u = effect v u) : OperandRule mk op .word wordValue effect := by
  obtain rfl : run = effect := funext₂ heffect
  exact wordOperand_isOperandForm.operandRule hencode hexec

/-- Settles O36: each of the five writes to A a word operation, which is the exact one reduced. -/
theorem integerArithmetic : Obligations.IntegerArithmetic :=
  ⟨.of_withWord (fun _ => rfl) (fun _ _ => rfl) fun v u => congrArg u.setA (BitVec.add_def u.regs.a v),
    .of_withWord (fun _ => rfl) (fun _ _ => rfl) fun v u => congrArg u.setA (sub_eq_ofInt u.regs.a v),
    .of_withWord (fun _ => rfl) (fun _ _ => rfl) fun v u => congrArg u.setA (mul_eq_ofNat u.regs.a v),
    .of_withWord (fun _ => rfl) (fun _ _ => rfl) fun v u => congrArg u.setA (and_eq_ofNat u.regs.a v),
    .of_withWord (fun _ => rfl) (fun _ _ => rfl) fun v u => congrArg u.setA (or_eq_ofNat u.regs.a v)⟩

/-- Settles O37: the signed test of the divisor is the test of the word, and the quotient is `divWord_eq_ofInt`. -/
theorem divideWord : Obligations.DivideWord := by
  refine .of_withWord (fun _ => rfl) (fun _ _ => rfl) fun v u => ?_
  simp only [s24_eq_zero_iff, divWord_eq_ofInt]
  rfl

/-- Settles O38: CC is the sign of the exact difference of A and the operand. -/
theorem compareWord : Obligations.CompareWord :=
  .of_withWord (fun _ => rfl) (fun _ _ => rfl) fun v u => u.setCC_s24_sub u.regs.a v

/-- Settles O39: the operand is read before X is incremented, and the new X is compared with it. -/
theorem incrementAndCompareWord : Obligations.IncrementAndCompareWord := by
  refine .of_withWord (fun _ => rfl) (fun _ _ => rfl) fun v u => ?_
  have hx : u.regs.x + 1#24 = BitVec.ofNat 24 (u.regs.x.toNat + 1) := BitVec.add_def _ _
  rw [State.incrementAndCompare, State.setCC_s24_sub, hx]
  rfl

end Sys2Proof.Machine
end

section
/-! SUPPORT. Register instructions of format 2: what the check of the register fields answers, the shifts as exact
integers, and the effect of each instruction (spec/44_register_ops.md). -/

namespace Sys2Proof.Machine

/-! ### The register fields -/

/-- A field that names a register goes on to the effect (44_register_ops.md R220). -/
theorem State.withReg_of_some {s : State} {i : Nibble} {r : Reg} (h : regOf i = some r) (k : Reg → State) :
    s.withReg i k = k r := by
  rw [State.withReg, h]

/-- A field that names none raises the condition whatever was to follow (44_register_ops.md R220). -/
theorem State.withReg_of_none {s : State} {i : Nibble} (h : regOf i = none) (k : Reg → State) :
    s.withReg i k = programCondition s 0x00#8 .badRegister := by
  rw [State.withReg, h]
  exact s.raiseProgram_eq _ _

theorem State.withRegs_of_some {s : State} {r1 r2 : Nibble} {q w : Reg} (hq : regOf r1 = some q)
    (hw : regOf r2 = some w) (k : Reg → Reg → State) : s.withRegs r1 r2 k = k q w := by
  rw [State.withRegs, State.withReg_of_some hq, State.withReg_of_some hw]

/-- One bad field of two is enough, and either raises the same condition. -/
theorem State.withRegs_of_none {s : State} {r1 r2 n : Nibble} (hmem : n ∈ [r1, r2]) (hn : regOf n = none)
    (k : Reg → Reg → State) : s.withRegs r1 r2 k = programCondition s 0x00#8 .badRegister := by
  rw [State.withRegs]
  cases hr1 : regOf r1 with
  | none => exact State.withReg_of_none hr1 _
  | some q =>
    rw [State.withReg_of_some hr1]
    obtain rfl | rfl := List.mem_pair.mp hmem
    · exact absurd (hr1.symm.trans hn) nofun
    · exact State.withReg_of_none hn _

/-- Settles O31: each of the ten instructions checks the fields it uses before every effect. -/
theorem badRegisterCondition : Obligations.BadRegisterCondition := by
  intro i n s hmem hbad
  have hn : regOf n = none := (regOf_eq_none_iff n).mpr hbad
  cases i with
  | addr r1 r2 | subr r1 r2 | mulr r1 r2 | divr r1 r2 | compr r1 r2 | rmo r1 r2 =>
    exact congrArg Host.Outcome.next (State.withRegs_of_none hmem hn _)
  | shiftl r1 r2 | shiftr r1 r2 | clear r1 r2 | tixr r1 r2 =>
    obtain rfl := List.mem_singleton.mp hmem
    exact congrArg Host.Outcome.next (State.withReg_of_none hn _)
  | _ => cases hmem

/-! ### The shifts -/

/-- What a shift brings in at the bottom and what it moves up share no bit. -/
theorem shiftLeft_and_ushiftRight (v : Word) (c : Nat) : v <<< c &&& v >>> (24 - c) = 0#24 := by
  refine BitVec.eq_of_getLsbD_eq fun k hk => ?_
  rw [BitVec.getLsbD_and, BitVec.getLsbD_shiftLeft, BitVec.getLsbD_ushiftRight, BitVec.getLsbD_zero]
  by_cases hkc : k < c
  · simp [hkc]
  · simp [BitVec.getLsbD_of_ge v (24 - c + k) (by omega)]

/-- A rotation to the left is the exact product by `2 ^ c` with the bits that leave at the top added at the bottom
(44_register_ops.md R226): the union of the two parts, which share no bit, is their sum. -/
theorem rotateLeft_eq_ofNat (v : Word) {c : Nat} (hc : c < 24) :
    v.rotateLeft c = BitVec.ofNat 24 (v.toNat * 2 ^ c + v.toNat / 2 ^ (24 - c)) := by
  have hsum : v.rotateLeft c = v <<< c + v >>> (24 - c) := by
    rw [BitVec.rotateLeft_def, Nat.mod_eq_of_lt hc, BitVec.add_eq_or_of_and_eq_zero _ _ (shiftLeft_and_ushiftRight v c)]
  refine BitVec.eq_of_toNat_eq ?_
  rw [hsum, BitVec.toNat_add, BitVec.toNat_shiftLeft, BitVec.toNat_ushiftRight, Nat.shiftLeft_eq,
    Nat.shiftRight_eq_div_pow, Nat.mod_add_mod, BitVec.toNat_ofNat]

/-- An arithmetic shift to the right is the quotient of the signed value rounded down (44_register_ops.md R227). -/
theorem sshiftRight_eq_ofInt (v : Word) (c : Nat) : v.sshiftRight c = BitVec.ofInt 24 (v.toInt / 2 ^ c) := by
  rw [BitVec.sshiftRight, Int.shiftRight_eq_div_pow, Nat.cast_pow, Nat.cast_ofNat]

/-- Settles O44: a count of 1 to 16 is below the width of a word, so the rotation is by the count itself. -/
theorem shiftRegisters : Obligations.ShiftRegisters := by
  intro r1 r2 s q hq
  have hcount : shiftCount r2 < 24 := by
    have hr2 := r2.isLt
    rw [shiftCount]
    omega
  refine ⟨rfl, rfl, congrArg Host.Outcome.next ?_, congrArg Host.Outcome.next ?_⟩
  · rw [State.withReg_of_some hq, rotateLeft_eq_ofNat _ hcount, shiftCount]
  · rw [State.withReg_of_some hq, sshiftRight_eq_ofInt, shiftCount]

/-! ### Arithmetic -/

/-- An instruction that combines its two registers by `run`, which the rule words as `f` (R231). -/
theorem CombineRule.of_combineRegs {mk : Nibble → Nibble → Instr} {op : Byte} {run f : Word → Word → Word}
    (hencode : ∀ r1 r2, encode (mk r1 r2) = encodePair op r1 r2)
    (hexec : ∀ r1 r2 s, exec (mk r1 r2) s = .next (s.combineRegs r1 r2 run))
    (hrun : ∀ d v, run d v = f d v) : CombineRule mk op f := by
  refine fun r1 r2 s => ⟨hencode r1 r2, fun q w hq hw => ?_⟩
  rw [hexec, State.combineRegs, State.withRegs_of_some hq hw, hrun]

/-- Settles O41: each of the three word operations is the exact one reduced. -/
theorem registerArithmetic : Obligations.RegisterArithmetic :=
  ⟨.of_combineRegs (fun _ _ => rfl) (fun _ _ _ => rfl) BitVec.add_def,
    .of_combineRegs (fun _ _ => rfl) (fun _ _ _ => rfl) sub_eq_ofInt,
    .of_combineRegs (fun _ _ => rfl) (fun _ _ _ => rfl) mul_eq_ofNat⟩

/-- DIVR on two registers, the divisor tested as a word and the quotient as R223 words it. -/
theorem exec_divr {r1 r2 : Nibble} {s : State} {q w : Reg} (hq : regOf r1 = some q) (hw : regOf r2 = some w) :
    exec (.divr r1 r2) s = .next
      (if s.readReg q = 0 then programCondition s 0x00#8 .divZero
      else s.writeReg w (divWord (s.readReg w) (s.readReg q))) := by
  refine congrArg Host.Outcome.next ?_
  rw [State.withRegs_of_some hq hw]
  simp only [s24_eq_zero_iff, State.raiseProgram_eq, codeIllegalInstruction]

/-- Settles O42: the two clauses are the branches of the test, and the quotient is `divWord_eq_ofInt`. -/
theorem registerDivide : Obligations.RegisterDivide := by
  refine fun r1 r2 s q w hq hw => ⟨rfl, fun hzero => ?_, fun hnonzero => ?_⟩
  · rw [exec_divr hq hw, if_pos hzero]
  · rw [exec_divr hq hw, if_neg hnonzero, divWord_eq_ofInt]

/-! ### Comparison, move and clear -/

/-- The value compared with the new X is read after the increment (43_integer_arith.md R207, 44_register_ops.md
R230). -/
theorem State.incrementAndCompare_eq (s : State) (v : State → Word) :
    s.incrementAndCompare v =
      let u := s.setX (BitVec.ofNat 24 (s.regs.x.toNat + 1))
      { u with sw := { u.sw with
        cc := if u.regs.x.toInt < (v u).toInt then 0b01
          else if u.regs.x.toInt = (v u).toInt then 0b00 else 0b10 } } := by
  have hx : s.regs.x + 1#24 = BitVec.ofNat 24 (s.regs.x.toNat + 1) := BitVec.add_def _ _
  rw [State.incrementAndCompare, State.setCC_s24_sub, hx]

/-- Settles O43: CC is the sign of the exact difference, for TIXR in the state after the increment. -/
theorem compareRegisters : Obligations.CompareRegisters := by
  refine ⟨fun r1 r2 s q w hq hw => ⟨rfl, congrArg Host.Outcome.next ?_⟩,
    fun r1 r2 s q hq => ⟨rfl, congrArg Host.Outcome.next ?_⟩⟩
  · rw [State.withRegs_of_some hq hw, State.setCC_s24_sub]
  · rw [State.withReg_of_some hq, State.incrementAndCompare_eq]
    rfl

/-- Settles O45: with its fields checked each of the two is one write by selector. -/
theorem moveAndClear : Obligations.MoveAndClear := by
  refine ⟨fun r1 r2 s q w hq hw => ⟨rfl, congrArg Host.Outcome.next ?_⟩,
    fun r1 r2 s q hq => ⟨rfl, congrArg Host.Outcome.next ?_⟩⟩
  · exact State.withRegs_of_some hq hw _
  · exact State.withReg_of_some hq _

end Sys2Proof.Machine
end

section
/-! SUPPORT. Control transfer: the writers of PC, and the effect of each jump, of JSUB and of RSUB
(spec/45_control_transfer.md). -/

namespace Sys2Proof.Machine

/-! ### The writers of PC -/

/-- PC is touched by `setPc` alone, which the class of `i` leaves out (45_control_transfer.md R248). -/
theorem EffectsKeep.of_programCounter {i : Instr} (s : State) (hi : writesProgramCounter i = false) :
    EffectsKeep i s (fun t => t.pc = s.pc) where
  toRobust := Robust.of_field State.pc s.pc (fun _ _ _ => rfl) (fun _ _ => rfl) (fun _ => rfl) (fun _ _ _ => rfl)
  regs _ _ _ h := h
  trace _ _ h := h
  pc hpc := absurd hpc (by simp [hi])
  cc _ _ _ h := h
  unpack _ _ _ h := h
  store _ _ _ _ _ h := h
  timer _ _ _ h := h
  device _ _ _ h := h

/-- Settles O24: with the writers of R248 left out every effect keeps PC. -/
theorem programCounterWriters : Obligations.ProgramCounterWriters :=
  fun _ s _ hi ht => exec_next_keeps (EffectsKeep.of_programCounter s hi) rfl ht

/-! ### The jumps -/

/-- A jump whose test `cond` is the condition `taken` obeys the jump rule: the operand is resolved before the test
(45_control_transfer.md R246). -/
theorem JumpRule.of_jumpIf {mk : MemOperand → Instr} {op : Byte} {cond : State → Bool} {taken : State → Prop}
    (hencode : ∀ m, encode (mk m) = encodeOperand op m) (hexec : ∀ m s, exec (mk m) s = .next (s.jumpIf m (cond s)))
    (hcond : ∀ s, cond s = true ↔ taken s) : JumpRule mk op taken := by
  intro m s
  refine ⟨hencode m, fun hnone => ?_, fun r hr => ⟨fun htaken => ?_, fun hnot => ?_⟩⟩
  · rw [hexec, State.jumpIf, State.withOperand_of_unresolved hnone]
  · rw [hexec, State.jumpIf, State.withOperand_of_resolved hr, if_pos ((hcond s).mpr htaken), State.setPc]
  · rw [hexec, State.jumpIf, State.withOperand_of_resolved hr, if_neg (mt (hcond s).mp hnot)]

/-- Settles O46: J always jumps, each of the others tests CC for one code. -/
theorem jumps : Obligations.Jumps :=
  ⟨.of_jumpIf (fun _ => rfl) (fun _ _ => rfl) fun _ => iff_true_intro rfl,
    .of_jumpIf (fun _ => rfl) (fun _ _ => rfl) fun _ => beq_iff_eq,
    .of_jumpIf (fun _ => rfl) (fun _ _ => rfl) fun _ => beq_iff_eq,
    .of_jumpIf (fun _ => rfl) (fun _ _ => rfl) fun _ => beq_iff_eq⟩

/-! ### Subroutines -/

theorem addrWord_eq_ofNat (a : Addr) : addrWord a = BitVec.ofNat 24 a.toNat := (BitVec.ofNat_toNat 24 a).symm

/-- Settles O47: the operand is resolved in the state before, and the return address is PC as a word. -/
theorem jumpToSubroutine : Obligations.JumpToSubroutine := by
  refine fun m s => ⟨rfl, fun hnone => addressingErrorCondition (.jsub m) m s rfl hnone,
    fun r hr => congrArg Host.Outcome.next ?_⟩
  rw [State.withOperand_of_resolved hr, addrWord_eq_ofNat]
  rfl

theorem State.popTrace_of_cons {s : State} {v : Word} {rest : List Word} (h : s.trace = v :: rest) :
    s.popTrace = { s with trace := rest } := by
  rw [State.popTrace, h]

theorem State.popTrace_of_nil {s : State} (h : s.trace = []) : s.popTrace = s.report .rsubEmptyTrace := by
  rw [State.popTrace, h]

/-- RSUB with its operand resolved: PC from L, then the pop of the trace (45_control_transfer.md R245). -/
theorem exec_rsub {m : MemOperand} {s : State} {r : Resolved} (hr : resolve m s = some r) :
    exec (.rsub m) s = .next (s.setPc (BitVec.ofNat 20 s.regs.l.toNat)).popTrace := by
  refine congrArg Host.Outcome.next ?_
  rw [State.withOperand_of_resolved hr, addr20_eq_ofNat]

/-- Settles O48: the two clauses are the branches of the pop, which `setPc` does not affect. -/
theorem returnFromSubroutine : Obligations.ReturnFromSubroutine := by
  refine fun m s r hr => ⟨rfl, fun v rest htrace => ?_, fun hempty => ?_⟩
  · rw [exec_rsub hr, State.popTrace_of_cons ((s.setPc_trace _).trans htrace), State.setPc]
  · rw [exec_rsub hr, State.popTrace_of_nil ((s.setPc_trace _).trans hempty)]
    rfl

end Sys2Proof.Machine
end

section
/-! SUPPORT. Floating point over the parameter `FP`, and the instructions that report only (spec/46_float.md). -/

namespace Sys2Proof.Machine

/-! ### Instructions with a float operand -/

/-- The operand rule where the rule words the instruction's effect `run` as `effect` (46_float.md R264). -/
theorem IsOperandForm.operandRule_congr {α : Type} {mk : MemOperand → Instr} {op : Byte} {w : AccessWidth}
    {value : State → Resolved → α} {run effect : α → State → State}
    {read : State → Resolved → (α → State → State) → State} (hread : IsOperandForm w value read)
    (hencode : ∀ m, encode (mk m) = encodeOperand op m)
    (hexec : ∀ m s, exec (mk m) s = .next (s.withOperand m fun r => read s r run))
    (heffect : ∀ v u, run v u = effect v u) : OperandRule mk op w value effect := by
  obtain rfl : run = effect := funext₂ heffect
  exact hread.operandRule hencode hexec

/-- Settles O49: ADDF, SUBF and MULF are a float operand and a write of F, COMPF codes in CC the sign of the
delta of each order. -/
theorem floatArithmetic : Obligations.FloatArithmetic := by
  refine ⟨floatOperand_isOperandForm.operandRule (fun _ => rfl) (fun _ _ => rfl),
    floatOperand_isOperandForm.operandRule (fun _ => rfl) (fun _ _ => rfl),
    floatOperand_isOperandForm.operandRule (fun _ => rfl) (fun _ _ => rfl),
    floatOperand_isOperandForm.operandRule_congr (fun _ => rfl) (fun _ _ => rfl) fun v u => ?_⟩
  cases Config.fpCmp u.regs.f v with
  | lt | eq | gt => rfl

/-- Settles O50: DIVF is a float operand and a write of F, with no test of the divisor. -/
theorem floatDivide : Obligations.FloatDivide :=
  floatOperand_isOperandForm.operandRule (fun _ => rfl) (fun _ _ => rfl)

/-! ### The instructions that report only -/

/-- A privileged effect runs in supervisor mode (60_exceptions.md R318). -/
theorem State.supervisorOnly_of_supervisor {s : State} (h : s.sw.mode = .supervisor) (k : State → State) :
    s.supervisorOnly k = k s := if_neg (by simp [h])

/-- Settles O51: the effect of each is the report, for SIO, HIO, TIO and SSK behind the privilege check and for SSK
behind the resolver as well. -/
theorem unimplementedInstructions : Obligations.UnimplementedInstructions := by
  refine fun s => ⟨rfl, rfl, rfl, rfl, rfl, rfl, rfl, rfl, rfl, fun hmode => ?_⟩
  have hreport : s.supervisorOnly (fun u => u.report .unimplemented) = s.report .unimplemented :=
    State.supervisorOnly_of_supervisor hmode _
  refine ⟨congrArg _ hreport, congrArg _ hreport, congrArg _ hreport, fun m r hr =>
    ⟨rfl, congrArg Host.Outcome.next ?_⟩⟩
  rw [State.withOperand_of_resolved hr, hreport, State.report]

end Sys2Proof.Machine
end

section
/-! SUPPORT. Devices, the processor state, TIMER and SVC (spec/47_system_io.md): what a privileged instruction with an
operand does once both checks pass, the rule of the device instructions, and the effect of each instruction. -/

namespace Sys2Proof.Machine

/-! ### Privileged instructions with an operand -/

/-- Both checks of 40_cycle.md R124 pass: the operand resolves and the mode is supervisor. -/
theorem State.withOperand_supervisorOnly {s : State} {m : MemOperand} {r : Resolved} (hr : resolve m s = some r)
    (hmode : s.sw.mode = .supervisor) (k : Resolved → State → State) :
    (s.withOperand m fun q => s.supervisorOnly (k q)) = k r s := by
  rw [State.withOperand_of_resolved hr, State.supervisorOnly_of_supervisor hmode]

/-! ### The device bus -/

theorem State.devicePresent_iff (s : State) (n : Byte) : s.devicePresent n = true ↔ n ∈ s.bus.present :=
  List.contains_iff_mem

/-- Noting a read leaves the device bus. -/
theorem readNoted_bus (s : State) (r : Resolved) (w : AccessWidth) : (readNoted s r w).bus = s.bus := by
  unfold readNoted
  split <;> rfl

/-- One operation, whatever its answer, is one step of the bus (R275, 20_memory.md R79). -/
theorem State.deviceDone_eq (s : State) (op : Config.DevOp) : s.deviceDone op = { s with bus := busAfter s op } := by
  rw [State.deviceDone, busAfter, List.drop_one]

/-- An instruction that reads a device number and then runs `run` when the device is present and `absent` when it is
not obeys the device rule (R275). -/
theorem DeviceRule.of_withDevice {mk : MemOperand → Instr} {op : Byte} {absent : State → State}
    {run operation : Byte → State → State} (hencode : ∀ m, encode (mk m) = encodeOperand op m)
    (hexec : ∀ m s, exec (mk m) s =
      .next (s.withDevice m fun n u => if u.devicePresent n then run n u else absent u))
    (hrun : ∀ n u, run n u = operation n u) : DeviceRule mk op absent operation := by
  intro m s r
  refine ⟨hencode m, fun hr hmode ha => ?_, fun hr hmode hp habsent => ?_, fun hr hmode hp hpresent => ?_⟩
  all_goals rw [hexec, State.withDevice, State.withOperand_supervisorOnly hr hmode]
  · rw [byteOperand_isOperandForm.aborts ha, State.abortCycle]
  · rw [byteOperand_isOperandForm.proceeds hp, if_neg (by rwa [State.devicePresent_iff, readNoted_bus])]
  · rw [byteOperand_isOperandForm.proceeds hp, if_pos (by rwa [State.devicePresent_iff, readNoted_bus]), hrun]

/-- Settles O52: a read that does not fail joins its byte to the upper bits of A. -/
theorem readDevice : Obligations.ReadDevice :=
  .of_withDevice (fun _ => rfl) (fun _ _ => rfl) fun n u => by
    simp only [State.deviceDone_eq, withLowByte_eq_replaceLowByte]
    rfl

/-- Settles O53: the byte handed to the device is the low byte of A, and only the bus and the reports change. -/
theorem writeDevice : Obligations.WriteDevice :=
  .of_withDevice (fun _ => rfl) (fun _ _ => rfl) fun n u => by
    simp only [State.deviceDone_eq, lowByte_eq_ofNat]
    rfl

/-- Settles O54: the deltas -1 and 0 that TD compares with zero are the CC codes less and equal. -/
theorem testDevice : Obligations.TestDevice :=
  .of_withDevice (fun _ => rfl) (fun _ _ => rfl) fun n u => by
    simp only [State.deviceDone_eq]
    cases (u.deviceAnswer (.test n)).ready <;> rfl

/-! ### The processor state -/

/-- One aborted read of the nine aborts LPS (R273). -/
theorem State.restoreContext_of_mem {s : State} {base : Addr} {p : Addr × AccessWidth} (hp : p ∈ contextReads base)
    (h : HookPoint.mk p.1 .read p.2 ∈ s.hook) : s.restoreContext base = s.abortCycle :=
  if_pos (List.any_eq_true.mpr ⟨p, hp, (s.hookAborts_iff ..).mpr h⟩)

/-- With no read aborted the whole context is loaded (R273). -/
theorem State.restoreContext_of_not_mem {s : State} {base : Addr}
    (h : ∀ p ∈ contextReads base, HookPoint.mk p.1 .read p.2 ∉ s.hook) :
    s.restoreContext base = (s.loadContext base).noteRead (base + 30#20) .float := by
  refine if_neg fun hany => ?_
  obtain ⟨p, hp, habort⟩ := List.any_eq_true.mp hany
  exact h p hp ((s.hookAborts_iff ..).mp habort)

theorem exec_lps {m : MemOperand} {s : State} {r : Resolved} (hr : resolve m s = some r)
    (hmode : s.sw.mode = .supervisor) : exec (.lps m) s = .next (s.restoreContext (addr20 r.ea)) :=
  congrArg Host.Outcome.next (State.withOperand_supervisorOnly hr hmode _)

/-- Settles O55: the nine reads are tested before anything is loaded, and the slots hold big-endian words. -/
theorem loadProcessorState : Obligations.LoadProcessorState := by
  refine fun m s r hr hmode => ⟨rfl, fun ⟨p, hp, haborts⟩ => ?_, fun hproceeds => ?_⟩
  · rw [exec_lps hr hmode, State.restoreContext_of_mem hp haborts, State.abortCycle]
  · rw [exec_lps hr hmode, State.restoreContext_of_not_mem hproceeds, State.loadContext]
    simp only [Memory.readWord_eq_wordAt, Memory.readFloat_eq_floatAt, addr20_eq_ofNat]
    rfl

/-! ### TIMER and SVC -/

theorem exec_sti {m : MemOperand} {s : State} {r : Resolved} (hr : resolve m s = some r)
    (hmode : s.sw.mode = .supervisor) :
    exec (.sti m) s = .next (s.wordOperand r fun v u => u.setTimer v) :=
  congrArg Host.Outcome.next (State.withOperand_supervisorOnly hr hmode _)

/-- Settles O56: STI is a word operand and the write of TIMER. -/
theorem loadTimer : Obligations.LoadTimer := by
  refine fun m s r hr hmode => ⟨rfl, fun haborts => ?_, fun hproceeds => ?_⟩
  · rw [exec_sti hr hmode, wordOperand_isOperandForm.aborts haborts, State.abortCycle]
  · rw [exec_sti hr hmode, wordOperand_isOperandForm.proceeds hproceeds, State.setTimer]

theorem exec_svc (r1 r2 : Nibble) (s : State) :
    exec (.svc r1 r2) s =
      .next (if s.sw.mask.getLsbD 3 = true then s.queue .svc (BitVec.ofNat 8 r1.toNat) else s.report .svcDisabled) := by
  rw [BitVec.ofNat_toNat, ← State.enabled_svc]
  rfl

/-- Settles O57: bit 3 of MASK is the class's weight (10_state.md R35), and no use is made of the second nibble. -/
theorem supervisorCall : Obligations.SupervisorCall := by
  refine fun r1 r2 s => ⟨rfl, fun henabled => ?_, fun hdisabled => ?_⟩
  · rw [exec_svc, if_pos henabled]
    rfl
  · rw [exec_svc, if_neg (ne_true_of_eq_false hdisabled), State.report]

end Sys2Proof.Machine
end

section
/-! SUPPORT. Exceptions and interrupts (spec/60_exceptions.md): the privilege rule, program conditions, the IO request,
the drain, and the entry of an interrupt with its return. -/

namespace Sys2Proof.Machine

/-! ### Privilege -/

/-- In user mode every instruction leaves out `setTimer` and `deviceDone`, and nothing else touches TIMER or the device
bus (R316 to R318). -/
theorem EffectsKeep.of_bus_timer {s : State} (i : Instr) (hmode : s.sw.mode = .user) :
    EffectsKeep i s (fun t => (t.bus, t.timer) = (s.bus, s.timer)) where
  toRobust := Robust.of_field (fun t => (t.bus, t.timer)) (s.bus, s.timer) (fun _ _ _ => rfl) (fun _ _ => rfl)
    (fun _ => rfl) (fun _ _ _ => rfl)
  regs _ _ _ h := h
  trace _ _ h := h
  pc _ _ _ h := h
  cc _ _ _ h := h
  unpack _ _ _ h := h
  store _ _ _ _ _ h := h
  timer hsupervisor := absurd hsupervisor (by simp [hmode])
  device hsupervisor := absurd hsupervisor (by simp [hmode])

/-- Settles O20: the effects on the bus and on TIMER need supervisor mode, and no instruction leaves user mode before
its effect. -/
theorem userModeKeepsBusAndTimer : Obligations.UserModeKeepsBusAndTimer :=
  fun i _ _ hmode ht => Prod.mk.inj (exec_next_keeps (EffectsKeep.of_bus_timer i hmode) rfl ht)

/-- A privileged effect is replaced by the program condition in user mode (R318). -/
theorem State.supervisorOnly_of_user {s : State} (h : s.sw.mode = .user) (k : State → State) :
    s.supervisorOnly k = programCondition s 0x01#8 .privileged :=
  (if_pos h).trans (s.raiseProgram_eq _ _)

/-- The operand resolves and the privilege check fails (40_cycle.md R124, R318). -/
theorem State.withOperand_supervisorOnly_of_user {s : State} {m : MemOperand} {r : Resolved}
    (hr : resolve m s = some r) (hmode : s.sw.mode = .user) (k : Resolved → State → State) :
    (s.withOperand m fun q => s.supervisorOnly (k q)) = programCondition s 0x01#8 .privileged := by
  rw [State.withOperand_of_resolved hr, State.supervisorOnly_of_user hmode]

/-- Settles O21: SIO, HIO and TIO begin with the privilege check, the other six with the resolver and then the check. -/
theorem privilegedTrapInUserMode : Obligations.PrivilegedTrapInUserMode := by
  refine fun s hmode => ⟨fun i hi => ?_, fun m r hr i hi => ?_⟩
  · simp only [List.mem_cons, List.not_mem_nil, or_false] at hi
    obtain rfl | rfl | rfl := hi
    all_goals exact congrArg Host.Outcome.next (State.supervisorOnly_of_user hmode _)
  · simp only [List.mem_cons, List.not_mem_nil, or_false] at hi
    obtain rfl | rfl | rfl | rfl | rfl | rfl := hi
    all_goals exact congrArg Host.Outcome.next (State.withOperand_supervisorOnly_of_user hr hmode _)

/-! ### Program conditions and the IO request -/

/-- Settles O29: bit 2 of MASK is the weight of PROGRAM (10_state.md R35), so the clauses are the branches of the
condition. -/
theorem programConditionProcedure : Obligations.ProgramConditionProcedure := by
  refine fun s code kind => ⟨fun henabled => ?_, fun hdisabled => ?_⟩
  · rw [State.raiseProgram_eq, programCondition, if_pos henabled]
  · rw [State.raiseProgram_eq, programCondition, if_neg (ne_true_of_eq_false hdisabled)]

theorem State.sampleIo_of_nil {s : State} (h : s.ioIrq = []) : s.sampleIo = s := by
  rw [State.sampleIo, h]

theorem State.sampleIo_of_none {s : State} {rest : List (Option Byte)} (h : s.ioIrq = none :: rest) :
    s.sampleIo = { s with ioIrq := rest } := by
  rw [State.sampleIo, h]

/-- A request is used up, and queued where MASK bit 0, the weight of IO, is set (R307, 10_state.md R35). -/
theorem State.sampleIo_of_some {s : State} {code : Byte} {rest : List (Option Byte)}
    (h : s.ioIrq = some code :: rest) :
    s.sampleIo =
      if s.sw.mask.getLsbD 0 = true then { s with ioIrq := rest, pend := { s.pend with io := some code } }
      else { s with ioIrq := rest } := by
  rw [State.sampleIo, h, ← State.enabled_io]
  rfl

/-- Settles O15: one clause for each shape of the input, and one for each value of MASK bit 0 where it requests. -/
theorem ioRequestSampled : Obligations.IoRequestSampled := by
  refine fun s => ⟨State.sampleIo_of_nil, fun _ => State.sampleIo_of_none,
    fun code rest hrequest henabled => ?_, fun code rest hrequest hdisabled => ?_⟩
  · rw [State.sampleIo_of_some hrequest, if_pos henabled]
  · rw [State.sampleIo_of_some hrequest, if_neg (ne_true_of_eq_false hdisabled)]

/-! ### The drain -/

theorem State.drain_of_highest {s : State} {c : IntClass} {code : Byte} (h : s.pend.highest = some (c, code)) :
    s.drain = s.enterInterrupt c code := by
  rw [State.drain, h]

theorem State.drain_of_none {s : State} (h : s.pend.highest = none) : s.drain = s := by
  rw [State.drain, h]

/-- The drain empties the slot of the class it takes and no other (R311). -/
theorem State.drain_pend_of_highest {s : State} {c : IntClass} {code : Byte} (h : s.pend.highest = some (c, code)) :
    s.drain = s.enterInterrupt c code ∧ s.drain.pend = s.pend.set c none := by
  rw [State.drain_of_highest h]
  exact ⟨rfl, s.enterInterrupt_pend c code⟩

/-- Settles O59: each clause says which slot `Pending.highest` answers, the ones before it being empty. -/
theorem drainPriority : Obligations.DrainPriority := by
  refine fun s code => ⟨fun hsvc => ?_, fun hsvc hprogram => ?_, fun hsvc hprogram htimer => ?_,
    fun hsvc hprogram htimer hio => ?_, fun hsvc hprogram htimer hio => ?_⟩
  · exact State.drain_pend_of_highest (c := .svc) (by rw [Pending.highest, hsvc])
  · exact State.drain_pend_of_highest (c := .program) (by rw [Pending.highest, hsvc, hprogram])
  · exact State.drain_pend_of_highest (c := .timer) (by rw [Pending.highest, hsvc, hprogram, htimer])
  · exact State.drain_pend_of_highest (c := .io) (by rw [Pending.highest, hsvc, hprogram, htimer, hio])
  · exact State.drain_of_none (by rw [Pending.highest, hsvc, hprogram, htimer, hio])

/-! ### Interrupt entry -/

/-- The save of a context does not reach the words below its slots, for any base: the handler's SW at offset 0 and PC at
offset 3 (R308, R309). -/
theorem State.readWord_saveContext_below (s : State) (base j : Addr) (hj : j.toNat ≤ 3) :
    Memory.readWord (s.saveContext base) (base + j) = Memory.readWord s.mem (base + j) := by
  have hbyte : ∀ i : Addr, i.toNat < 6 →
      Memory.byte (s.saveContext base) (base + i) = Memory.byte s.mem (base + i) := fun i hi => by
    refine s.byte_saveContext_outside base _ fun k hk heq => ?_
    rw [BitVec.add_assoc, BitVec.add_right_inj] at heq
    bv_omega
  simp only [Memory.readWord, BitVec.add_assoc]
  rw [hbyte j (by omega), hbyte (j + 1#20) (by bv_omega), hbyte (j + 2#20) (by bv_omega)]

/-- A work area whose slots end below the top of memory: an address below or above them is none of theirs (R308). -/
theorem State.byte_saveContext_of_toNat {s : State} {base x : Addr} (hbase : base.toNat + 36 ≤ 2 ^ 20)
    (hx : x.toNat < base.toNat + 6 ∨ base.toNat + 36 ≤ x.toNat) :
    Memory.byte (s.saveContext base) x = Memory.byte s.mem x := by
  refine s.byte_saveContext_outside base x fun k hk heq => ?_
  bv_omega

theorem areaBase_add_le (c : IntClass) : (areaBase c).toNat + 36 ≤ 2 ^ 20 := by
  cases c <;> decide

/-- The handler's SW and PC are the words the work area held before the save (R308, R310). -/
theorem State.enterInterrupt_eq (s : State) (c : IntClass) (code : Byte) :
    s.enterInterrupt c code = { s with
      mem := s.saveContext (areaBase c)
      sw := { unpackSW (wordAt s.mem (areaBase c)) with icode := code }
      pc := BitVec.ofNat 20 (wordAt s.mem (areaBase c + 3#20)).toNat
      pend := s.pend.set c none } := by
  have hsw := s.readWord_saveContext_below (areaBase c) 0#20 (by decide)
  have hpc := s.readWord_saveContext_below (areaBase c) 3#20 (by decide)
  rw [BitVec.add_zero] at hsw
  rw [State.enterInterrupt, hsw, hpc, Memory.readWord_eq_wordAt, Memory.readWord_eq_wordAt, addr20_eq_ofNat]

/-- Settles O58: the slots are those of the saved context, the bytes around them are untouched, and the first two words
of the area are among those. -/
theorem interruptEntry : Obligations.InterruptEntry := by
  intro s c code _ base t
  have hbase : base = areaBase c := by cases c <;> rfl
  have hmem : t.mem = s.saveContext base := by rw [hbase]; exact s.enterInterrupt_mem c code
  obtain ⟨hsw, hpc, ha, hx, hl, hb, hs, ht, hf⟩ := s.saveContext_slots base
  rw [← hmem] at hsw hpc ha hx hl hb hs ht hf
  simp only [Memory.readWord_eq_wordAt, Memory.readFloat_eq_floatAt, addrWord_eq_ofNat] at hsw hpc ha hx hl hb hs ht hf
  refine ⟨hsw, hpc, ha, hx, hl, hb, hs, ht, hf, fun x hout => ?_, ?_⟩
  · rw [hmem]
    exact State.byte_saveContext_of_toNat (hbase ▸ areaBase_add_le c) hout
  · rw [hmem, hbase, show t = _ from s.enterInterrupt_eq c code]
    cases c <;> rfl

/-! ### Return from an interrupt -/

theorem addr20_addrWord (a : Addr) : addr20 (addrWord a) = a := BitVec.setWidth_setWidth_of_le a (by decide)

/-- The slots of the work area give back what the entry saved in them (R314); a legal CC survives the packed form
(10_state.md R33). -/
theorem State.loadContext_enterInterrupt {s : State} (hlegal : s.sw.cc ≠ 0b11#2) (c : IntClass) (code : Byte) :
    let u := (s.enterInterrupt c code).loadContext (areaBase c)
    u.regs = s.regs ∧ u.sw = s.sw ∧ u.pc = s.pc := by
  obtain ⟨hsw, hpc, ha, hx, hl, hb, hs, ht, hf⟩ := s.saveContext_slots (areaBase c)
  refine ⟨?_, ?_, ?_⟩
  · rw [State.loadContext, State.enterInterrupt_mem, ha, hx, hl, hb, hs, ht, hf]
  · rw [State.loadContext_sw, State.enterInterrupt_mem, hsw, unpackSW_packSW hlegal]
  · rw [State.loadContext_pc, State.enterInterrupt_mem, hpc, addr20_addrWord]

/-- Settles O60: with no read aborted LPS loads the context the entry saved, and of the rest it changes only the
spans. -/
theorem lpsUndoesInterruptEntry : Obligations.LpsUndoesInterruptEntry := by
  intro s c code m r _ hlegal hmode hr hea hhook
  have hreads : ∀ p ∈ contextReads (areaBase c), HookPoint.mk p.1 .read p.2 ∉ (s.enterInterrupt c code).hook :=
    fun p _ => hhook p.1 p.2
  obtain ⟨hregs, hsw, hpc⟩ := State.loadContext_enterInterrupt hlegal c code
  refine ⟨_, exec_lps hr hmode, ?_⟩
  rw [hea, State.restoreContext_of_not_mem hreads]
  exact ⟨hregs, hsw, hpc, by simp, by simp, by simp⟩

end Sys2Proof.Machine
end
